-- ==== Sys2Proof/Word.lean ====
section
/-! DEFINITION. The words of the RBAG: the 64-bit value, the byte, the command word, and the two sides
(spec/00_scope.md R7, R8, R13, R15; spec/30_encoding.md R70, R71). -/

namespace Sys2Proof

/-- A 64-bit unsigned value: counters, pending counts, sizes, offsets, register results (R7, R8).
`a + b` and `a - b` on it are the spec's `add64` and `sub64` (R15); `<`, `≤` are the unsigned comparisons (R13). -/
abbrev Word := BitVec 64

/-- The addressable unit of the data RAM (R50) and the `OPB` operand (R77). -/
abbrev Byte := BitVec 8

/-- A 32-bit command word (R71). -/
abbrev CmdWord := BitVec 32

/-- The two sides, each with one command port (R19, R70, R240): `P` the producer, `C` the consumer. -/
inductive Side where
  | P
  | C
  deriving DecidableEq, Repr, Inhabited

/-- The other side. -/
def Side.other : Side → Side
  | .P => .C
  | .C => .P

end Sys2Proof
end

