-- ==== Sys2Proof/Config.lean ====
section
/-! DEFINITION. The build parameters of the RBAG (spec/00_scope.md R6, R9, R10, R11) and the free values: constants
without a body, so that nothing can be proved about which value they are (log entries 1, 4, 6, 7, 8). -/

namespace Sys2Proof

/-- `PEER_VIEW` (R9): how a side observes the other side's counter. -/
inductive PeerView where
  | current
  | lagged
  deriving DecidableEq, Repr

/-- The build and platform parameters (R11). `capLog2` is `CAP_LOG2`, 0 to 63 (R6); `dataBase` is the open
parameter `DATA_BASE` (R10), the address at which the data region is mapped for an agent's own memory path. -/
structure Config where
  capLog2  : Fin 64
  peerView : PeerView
  dataBase : Nat
  deriving DecidableEq, Repr

/-- The parameters `State.reset` is built with: the worked examples' `CAP_LOG2 = 3` (R6), the default `CURRENT`
(R9), base 0. DESIGN CHOICE (log entry 1): `State.resetWith` takes any others, and no field of a state is ever
assumed to have these. -/
def Config.worked : Config :=
  { capLog2 := 3, peerView := .current, dataBase := 0 }

/-- FREE VALUE: what reading an unwritten data-RAM byte returns (R50, R63): the `k`-th read of the command or
own-path read whose tick is `t` (log entry 6). -/
opaque Config.freeByte (t k : Nat) : Byte

/-- FREE VALUE: the choice behind the `LAGGED` draw of the peer counter by the command whose tick is `t`
(spec/40_header.md R104). `readPeer` brings it into the bound the rule gives (log entry 7). -/
opaque Config.freeLag (t : Nat) : Nat

/-- FREE VALUE: how many more peer reads of a side may miss the value the peer's counter had when the command whose
tick is `t` observed it (spec/70_reset_and_hazards.md R265). Any number may be drawn (log entry 8). -/
opaque Config.freeLagRun (t : Nat) : Nat

/-- FREE VALUE: the arbiter's choice when both ports wait and no grant is listed (spec/20_memory.md R60): whether
the consumer's port comes first, and how many more commands that port gets before the other (log entry 4). -/
opaque Config.freeGrant (t : Nat) : Bool × Nat

end Sys2Proof
end

