-- ==== Sys2Proof/Syntax.lean ====
section
/-! DEFINITION. The command as it stands on a port, and the 24 decoded commands of spec/opcode_table.json
(spec/30_encoding.md R70, R77, R88) with the pseudo-instructions (R86). -/

namespace Sys2Proof

/-- What an agent puts on its port (R70): the command word and its operands. `OPA` and `OPB` are always present;
the payload is a byte list (R77, R84). The port is not part of it: it is where the command arrives. -/
structure Command where
  word    : CmdWord
  opa     : Word
  opb     : Byte
  payload : List Byte
  deriving DecidableEq, Repr

/-- The commands, one constructor per row of the opcode map (R88), with the operands the row uses. -/
inductive Instr where
  /-- `P.NOP` (R200) -/
  | pNop
  /-- `C.NOP` (R201) -/
  | cNop
  /-- `P.START` (R141) -/
  | pStart
  /-- `P.ACCESS size` (R142) -/
  | pAccess (size : Word)
  /-- `P.ACCESS.PART size` (R143) -/
  | pAccessPart (size : Word)
  /-- `P.COMMIT` (R144) -/
  | pCommit
  /-- `P.CANCEL` (R145) -/
  | pCancel
  /-- `P.WRITE size, payload` (R146) -/
  | pWrite (size : Word) (payload : List Byte)
  /-- `P.WRITE.PART size, payload` (R147) -/
  | pWritePart (size : Word) (payload : List Byte)
  /-- `P.WRITE.ATOMIC size, payload` (R148) -/
  | pWriteAtomic (size : Word) (payload : List Byte)
  /-- `P.DWRITE o, b` (R149) -/
  | pDwrite (o : Word) (b : Byte)
  /-- `C.START` (R161) -/
  | cStart
  /-- `C.ACCESS size` (R162) -/
  | cAccess (size : Word)
  /-- `C.ACCESS.PART size` (R163) -/
  | cAccessPart (size : Word)
  /-- `C.COMMIT` (R164) -/
  | cCommit
  /-- `C.CANCEL` (R165) -/
  | cCancel
  /-- `C.READ size` (R166) -/
  | cRead (size : Word)
  /-- `C.READ.PART size` (R167) -/
  | cReadPart (size : Word)
  /-- `C.READ.ATOMIC size` (R168) -/
  | cReadAtomic (size : Word)
  /-- `C.DREAD o` (R169) -/
  | cDread (o : Word)
  /-- `P.RDREG reg` (R202) -/
  | pRdreg (reg : BitVec 8)
  /-- `C.RDREG reg` (R203) -/
  | cRdreg (reg : BitVec 8)
  /-- `P.PROBE o` (R204) -/
  | pProbe (o : Word)
  /-- `C.PROBE o` (R205) -/
  | cProbe (o : Word)
  deriving DecidableEq, Repr

/-- The side a command acts for, which is the port it is issued on (R72). -/
def Instr.side : Instr → Side
  | .pNop | .pStart | .pAccess _ | .pAccessPart _ | .pCommit | .pCancel | .pWrite _ _ | .pWritePart _ _
  | .pWriteAtomic _ _ | .pDwrite _ _ | .pRdreg _ | .pProbe _ => .P
  | .cNop | .cStart | .cAccess _ | .cAccessPart _ | .cCommit | .cCancel | .cRead _ | .cReadPart _
  | .cReadAtomic _ | .cDread _ | .cRdreg _ | .cProbe _ => .C

/-- The pseudo-instructions (R86). -/
inductive Pseudo where
  | pRdhead | pRdtail | cRdhead | cRdtail | pRdfree | cRdocc
  | pRdflags | cRdflags | pRdfault | cRdfault
  | pWritePartial (size : Word) (payload : List Byte)
  | cReadPartial (size : Word)
  deriving DecidableEq, Repr

/-- Each pseudo-instruction is exactly one command (R86). -/
def Pseudo.expand : Pseudo → Instr
  | .pRdhead => .pRdreg 0x02
  | .pRdtail => .pRdreg 0x03
  | .cRdhead => .cRdreg 0x02
  | .cRdtail => .cRdreg 0x03
  | .pRdfree => .pRdreg 0x05
  | .cRdocc => .cRdreg 0x04
  | .pRdflags => .pRdreg 0x06
  | .cRdflags => .cRdreg 0x06
  | .pRdfault => .pRdreg 0x0B
  | .cRdfault => .cRdreg 0x0B
  | .pWritePartial size payload => .pWritePart size payload
  | .cReadPartial size => .cReadPart size

/-- The mnemonic of a command, as spec/opcode_table.json spells it. -/
def Instr.mnemonic : Instr → String
  | .pNop => "P.NOP"
  | .cNop => "C.NOP"
  | .pStart => "P.START"
  | .pAccess _ => "P.ACCESS"
  | .pAccessPart _ => "P.ACCESS.PART"
  | .pCommit => "P.COMMIT"
  | .pCancel => "P.CANCEL"
  | .pWrite _ _ => "P.WRITE"
  | .pWritePart _ _ => "P.WRITE.PART"
  | .pWriteAtomic _ _ => "P.WRITE.ATOMIC"
  | .pDwrite _ _ => "P.DWRITE"
  | .cStart => "C.START"
  | .cAccess _ => "C.ACCESS"
  | .cAccessPart _ => "C.ACCESS.PART"
  | .cCommit => "C.COMMIT"
  | .cCancel => "C.CANCEL"
  | .cRead _ => "C.READ"
  | .cReadPart _ => "C.READ.PART"
  | .cReadAtomic _ => "C.READ.ATOMIC"
  | .cDread _ => "C.DREAD"
  | .pRdreg _ => "P.RDREG"
  | .cRdreg _ => "C.RDREG"
  | .pProbe _ => "P.PROBE"
  | .cProbe _ => "C.PROBE"

/-- A byte list in assembler syntax (R85): decimal numbers between the two curly brackets (characters 123 and
125), separated by commas. -/
def asmBytes (bs : List Byte) : String :=
  String.singleton (Char.ofNat 123) ++ String.intercalate ", " (bs.map fun b => toString b.toNat)
    ++ String.singleton (Char.ofNat 125)

/-- The operands of a command in assembler syntax (R85), numbers in decimal. -/
def Instr.operands : Instr → List String
  | .pNop | .cNop | .pStart | .cStart | .pCommit | .cCommit | .pCancel | .cCancel => []
  | .pAccess v | .pAccessPart v | .cAccess v | .cAccessPart v | .cRead v | .cReadPart v | .cReadAtomic v
  | .cDread v | .pProbe v | .cProbe v => [toString v.toNat]
  | .pRdreg reg | .cRdreg reg => [toString reg.toNat]
  | .pWrite size payload | .pWritePart size payload | .pWriteAtomic size payload =>
    [toString size.toNat, asmBytes payload]
  | .pDwrite o b => [toString o.toNat, toString b.toNat]

/-- A command in assembler syntax (R85). -/
def Instr.asm (i : Instr) : String :=
  match i.operands with
  | [] => i.mnemonic
  | os => i.mnemonic ++ " " ++ String.intercalate ", " os

end Sys2Proof
end

