-- ==== Sys2Proof/Machine/State.lean ====
section
/-! DEFINITION. The state of the RBAG as plain data (spec/10_state.md R20 to R31, R39), the response of a command
(spec/30_encoding.md R78, R79), the reasons a step can stop, and the state after reset
(spec/70_reset_and_hazards.md R250). -/

namespace Sys2Proof.Machine

/-- The status codes (R79). The reserved values 6 and 7 are no constructors: they are never returned. -/
inductive Status where
  | ok
  | busy
  | wouldBlock
  | noTransaction
  | outOfSpace
  | invalidArgument
  deriving DecidableEq, Repr

/-- A segment `(off, len)`: the physical offsets `off .. off+len-1` (spec/00_scope.md R19). -/
structure Segment where
  off : Word
  len : Word
  deriving DecidableEq, Repr

/-- The response of a command (R78), field by field. -/
structure Response where
  status : Status
  n      : Word
  nseg   : BitVec 2
  aOff   : Word
  aLen   : Word
  bOff   : Word
  bLen   : Word
  rdata  : Word
  rbytes : List Byte
  deriving DecidableEq, Repr

/-- The data RAM (spec/20_memory.md R50): (offset, byte) pairs, offsets strictly rising. An offset that is not
listed is unwritten (log entry 16). -/
abbrev Memory := List Host.Cell

/-- Why the machine stops. No `step` raises any of these: the command set has no fault of this kind
(spec/60_exceptions.md R244). They are raised by the environment's own-path accesses alone. -/
inductive Fault where
  /-- Raised by `env` on an own-path access at an address outside the mapped data region
  (spec/70_reset_and_hazards.md R261, spec/20_memory.md R53). Safe: the spec says nothing of such a run. -/
  | ownPathOutsideRegion
  /-- Raised by `env` on an own-path access to an offset outside the agent's open window (R261 duty 1;
  spec/93_implementation_defined.md row 17). Safe: the spec says nothing of such a run. -/
  | ownPathOutsideWindow
  /-- Raised by `env` on an own-path access after the agent has issued the `COMMIT` that ends its transaction (R261
  duties 2 and 3; row 17). Safe: the spec says nothing of such a run. -/
  | ownPathAfterCommit
  deriving DecidableEq, Repr

/-- Why the model gives no meaning. -/
inductive Refusal where
  /-- An instruction without a meaning yet, raised by `exec`'s arm for it. No arm of this model raises it. Safe: it
  only stops. -/
  | notModelled (mnemonic : String)
  deriving DecidableEq, Repr

/-- The state of the machine.

From the spec: `HEAD`, `TAIL` (R23, R24), the guards `WB`, `RB` (R25), the transaction state of each side (R28,
R29), the snapshots (R27), `FAULT` (R30) and the data RAM (R31).

The model's own, which the spec says are no state of the block (R38): the build parameters `cfg` (log entry 1); the
commands issued on each port and not yet applied, oldest first (log entry 2); the arbiter's coming choices `grants`
(log entry 4); the reset input `resetIn` (log entry 10); the responses returned since the last reset, in apply order,
each with its port (log entry 3); `tick`, the index of the free values (log entry 5); how the `LAGGED` draws of each
side come to the peer's value, `pLagLeft`, `pLagGoal`, `cLagLeft` and `cLagGoal` (log entry 8); and what the consumer's
own-path reads since the last reset have returned, each with its address (log entry 13). -/
structure State where
  cfg       : Config
  head      : Word
  tail      : Word
  wb        : Bool
  rb        : Bool
  pIntx     : Bool
  pPending  : Word
  pTailSeen : Word
  cIntx     : Bool
  cPending  : Word
  cHeadSeen : Word
  fault     : Word
  ram       : Memory
  pQueue    : List Command
  cQueue    : List Command
  grants    : List Side
  resetIn   : Bool
  responses : List (Side × Response)
  tick      : Nat
  pLagLeft  : Nat
  pLagGoal  : Word
  cLagLeft  : Nat
  cLagGoal  : Word
  ownReads  : List (Nat × Byte)
  deriving DecidableEq, Repr

/-- The state after reset for given build parameters (R39, R250). -/
def State.resetWith (cfg : Config) : State :=
  { cfg := cfg
    head := 0
    tail := 0
    wb := false
    rb := false
    pIntx := false
    pPending := 0
    pTailSeen := 0
    cIntx := false
    cPending := 0
    cHeadSeen := 0
    fault := 0
    ram := []
    pQueue := []
    cQueue := []
    grants := []
    resetIn := false
    responses := []
    tick := 0
    pLagLeft := 0
    pLagGoal := 0
    cLagLeft := 0
    cLagGoal := 0
    ownReads := [] }

/-- The machine right after reset (R250), with the parameters of log entry 1. -/
def State.reset : State := State.resetWith Config.worked

end Sys2Proof.Machine
end

