-- ==== Sys2Proof/Machine/Ops.lean ====
section
/-! DEFINITION. Named operations over the state: the build constants, the data RAM, the per-side registers, the sticky
fault record, and the response of a command. A command that fails is ONE operation here, `State.fail`: the RBAG takes
no exceptions (spec/60_exceptions.md R227, R228), it answers a status and records at most one `FAULT` bit (R220, R223). -/

namespace Sys2Proof.Machine

/-! ### Build constants (spec/10_state.md R22) -/

/-- `CAPACITY = 2^CAP_LOG2` (R6, R22). -/
def State.capacity (s : State) : Word := BitVec.ofNat 64 (2 ^ s.cfg.capLog2.val)

/-- `MASK = CAPACITY - 1` (R22). -/
def State.mask (s : State) : Word := s.capacity - 1

/-! ### The data RAM (spec/20_memory.md R50) -/

/-- What a byte holds: nothing if it is unwritten (R50). -/
def Memory.read? : Memory → Nat → Option Byte
  | [], _ => none
  | (a, b) :: m, o => if a = o then some b else Memory.read? m o

/-- `MemWrite(o, 1, v)` (R16, R50): byte `o` holds `v` from now on. -/
def Memory.write : Memory → Nat → Byte → Memory
  | [], o, v => [(o, v)]
  | (a, b) :: m, o, v =>
    if o < a then (o, v) :: (a, b) :: m
    else if o = a then (o, v) :: m
    else (a, b) :: Memory.write m o v

/-- The canonical form: offsets strictly rising. No listed entry reads as an unlisted one does, since a listed byte
is written. -/
def Memory.wf : Memory → Bool
  | [] => true
  | [_] => true
  | (a, _) :: (b, v) :: m => decide (a < b) && Memory.wf ((b, v) :: m)

/-- Every listed offset exists: it is below `cap` (R53). -/
def Memory.within (m : Memory) (cap : Nat) : Bool := m.all fun cell => decide (cell.1 < cap)

/-- `MemRead(o, 1)` (R16, R50, R63): the byte's value, or a draw if it is unwritten. `k` says which of the command's
reads this is, so that the draws are independent (log entry 6). -/
def State.memRead (s : State) (o : Word) (k : Nat) : Byte :=
  (s.ram.read? o.toNat).getD (Config.freeByte s.tick k)

/-- `MemWrite(o, 1, v)` on the machine. -/
def State.memWrite (s : State) (o : Word) (v : Byte) : State :=
  { s with ram := s.ram.write o.toNat v }

/-! ### The registers of a side (spec/40_header.md R100, R105; spec/41_datapath.md R120, R121) -/

/-- `ReadOwn(s)` and the head/tail pointer mux `Base(s)`: the side's own counter (R105, R120). -/
def State.own (s : State) : Side → Word
  | .P => s.head
  | .C => s.tail

/-- The other side's counter, as it stands (R19). -/
def State.peer (s : State) : Side → Word
  | .P => s.tail
  | .C => s.head

/-- `P_INTX` or `C_INTX` (R28, R29). -/
def State.inTx (s : State) : Side → Bool
  | .P => s.pIntx
  | .C => s.cIntx

/-- The pending mux `Pend(s)`: `P_PENDING` or `C_PENDING` (R121). -/
def State.pending (s : State) : Side → Word
  | .P => s.pPending
  | .C => s.cPending

/-- `P_TAILSEEN` or `C_HEADSEEN` (R27). -/
def State.seen (s : State) : Side → Word
  | .P => s.pTailSeen
  | .C => s.cHeadSeen

/-- `WB` or `RB` (R25). -/
def State.guard (s : State) : Side → Bool
  | .P => s.wb
  | .C => s.rb

/-- How many more peer reads of a side may miss its goal (log entry 8). -/
def State.lagLeft (s : State) : Side → Nat
  | .P => s.pLagLeft
  | .C => s.cLagLeft

/-- The peer value a side's reads are to come to (log entry 8). -/
def State.lagGoal (s : State) : Side → Word
  | .P => s.pLagGoal
  | .C => s.cLagGoal

def State.setOwn (s : State) (sd : Side) (v : Word) : State :=
  match sd with
  | .P => { s with head := v }
  | .C => { s with tail := v }

def State.setInTx (s : State) (sd : Side) (v : Bool) : State :=
  match sd with
  | .P => { s with pIntx := v }
  | .C => { s with cIntx := v }

def State.setPending (s : State) (sd : Side) (v : Word) : State :=
  match sd with
  | .P => { s with pPending := v }
  | .C => { s with cPending := v }

def State.setSeen (s : State) (sd : Side) (v : Word) : State :=
  match sd with
  | .P => { s with pTailSeen := v }
  | .C => { s with cHeadSeen := v }

def State.setGuard (s : State) (sd : Side) (v : Bool) : State :=
  match sd with
  | .P => { s with wb := v }
  | .C => { s with rb := v }

def State.setLag (s : State) (sd : Side) (left : Nat) (goal : Word) : State :=
  match sd with
  | .P => { s with pLagLeft := left, pLagGoal := goal }
  | .C => { s with cLagLeft := left, cLagGoal := goal }

/-! ### The sticky fault record (spec/10_state.md R30, R34) -/

/-- The misuses a `FAULT` bit records (R34, R220). -/
inductive Misuse where
  | busy
  | noTx
  | window
  | arith
  deriving DecidableEq, Repr

/-- The number of the `FAULT` bit of a side's misuse (R34). -/
def faultBit (sd : Side) (m : Misuse) : Nat :=
  match sd, m with
  | .P, .busy => 0
  | .P, .noTx => 1
  | .P, .window => 2
  | .P, .arith => 3
  | .C, .busy => 8
  | .C, .noTx => 9
  | .C, .window => 10
  | .C, .arith => 11

/-- `stickyFault(b)` (R17, R222): sets the bit, clears none. -/
def State.stickyFault (s : State) (sd : Side) (m : Misuse) : State :=
  { s with fault := s.fault ||| BitVec.twoPow 64 (faultBit sd m) }

/-! ### Responses (spec/30_encoding.md R78, R79) -/

/-- The value of a status code (R79). -/
def Status.code : Status → BitVec 3
  | .ok => 0
  | .busy => 1
  | .wouldBlock => 2
  | .noTransaction => 3
  | .outOfSpace => 4
  | .invalidArgument => 5

/-- A response with a status, a count, and every other field zero or empty (R18, R78). -/
def Response.plain (st : Status) (n : Word) : Response :=
  { status := st, n := n, nseg := 0, aOff := 0, aLen := 0, bOff := 0, bLen := 0, rdata := 0, rbytes := [] }

/-- `Ok(n)` (R18). -/
def Response.ok (n : Word) : Response := Response.plain .ok n

/-- A response of a failing command: every field but `STATUS` zero or empty (R220). -/
def Response.failure (st : Status) : Response := Response.plain st 0

/-- The segment fields of a response (R78, R142). There are never more than two segments (R126). -/
def Response.withSegs (r : Response) : List Segment → Response
  | [] => r
  | [a] => { r with nseg := 1, aOff := a.off, aLen := a.len }
  | a :: b :: _ => { r with nseg := 2, aOff := a.off, aLen := a.len, bOff := b.off, bLen := b.len }

/-- The command's response, returned on its own port after the earlier ones (R60, R70). -/
def State.respond (s : State) (port : Side) (r : Response) : State :=
  { s with responses := s.responses ++ [(port, r)] }

/-- A command that fails (R220, R223): the status, and the `FAULT` bit of its misuse if the table gives one. -/
def State.fail (s : State) (sd : Side) (st : Status) : Option Misuse → State
  | none => s.respond sd (.failure st)
  | some m => (s.stickyFault sd m).respond sd (.failure st)

/-- The responses a port has had since reset, in issue order (R60). -/
def State.portResponses (s : State) (port : Side) : List Response :=
  (s.responses.filter fun e => e.1 == port).map Prod.snd

/-! ### Reset (spec/70_reset_and_hazards.md R250, R251) -/

/-- Reset applied to the whole block: every element at its reset value, the build constants kept, the issued
commands discarded without a response, and the run's responses and own-path reads begun anew. The draw index goes on, so that draws
after a reset are new ones (log entries 5 and 10). -/
def State.applyReset (s : State) : State := { State.resetWith s.cfg with tick := s.tick }

end Sys2Proof.Machine
end

