-- ==== Sys2Proof/Machine/Header.lean ====
section
/-! DEFINITION. The header primitives of spec/40_header.md R100 to R110: internal operations of the command rules, not
commands (R110). -/

namespace Sys2Proof.Machine

/-- `BeginGuard(s)` (R101, R103): the test-and-set of the side's guard. `none` is the failure, which leaves the
guard as it is. -/
def State.beginGuard (s : State) (sd : Side) : Option State :=
  if s.guard sd then none else some (s.setGuard sd true)

/-- `EndGuard(s)` (R102, R103). -/
def State.endGuard (s : State) (sd : Side) : State := s.setGuard sd false

/-- The value a `LAGGED` read draws between a floor and the peer counter (R104): the floor plus a free distance that is
at most the distance of the peer counter from it (log entry 7). -/
def laggedDraw (floor peer : Word) (choice : Nat) : Word :=
  floor + BitVec.ofNat 64 (choice % ((peer - floor).toNat + 1))

/-- The oldest peer value a `LAGGED` read of a side may return: the snapshot (R104), or, at the read that is to come to
the side's goal, that goal if the snapshot is not already past it (spec/70_reset_and_hazards.md R265; log entry 8). -/
def State.lagFloor (s : State) (sd : Side) : Word :=
  if s.lagLeft sd = 0 ∧ s.lagGoal sd - s.seen sd ≤ s.peer sd - s.seen sd then s.lagGoal sd else s.seen sd

/-- The plan of a side's `LAGGED` reads at its next peer read. A goal, the peer's counter as it stood, is left behind
once a read was to come to it or the snapshot is past it; the next goal is the counter as it stands, with a free number
of reads that may still miss it. So every peer value is reached by finitely many reads, and no finite run is excluded
(R265; log entry 8). -/
def State.planLag (s : State) (sd : Side) : State :=
  if s.lagLeft sd = 0 ∨ s.peer sd - s.seen sd < s.lagGoal sd - s.seen sd then
    s.setLag sd (Config.freeLagRun s.tick) (s.peer sd)
  else s.setLag sd (s.lagLeft sd - 1) (s.lagGoal sd)

/-- `ReadPeer(s)` (R104): the acquire load of the other side's counter. It writes nothing. -/
def State.readPeer (s : State) (sd : Side) : Word :=
  match s.cfg.peerView with
  | .current => s.peer sd
  | .lagged => laggedDraw (s.lagFloor sd) (s.peer sd) (Config.freeLag s.tick)

/-- `IncHead(n)` for the producer, `IncTail(n)` for the consumer (R106, R107): the release of the side's counter. -/
def State.incOwn (s : State) (sd : Side) (n : Word) : State := s.setOwn sd (s.own sd + n)

end Sys2Proof.Machine
end

