-- ==== Sys2Proof/Machine/Datapath.lean ====
section
/-! DEFINITION. The shared datapath of spec/41_datapath.md: the address generator (R122 to R127), the space calculator
(R128 to R130), the arithmetic assertion (R135) and `AccessCore` (R134). -/

namespace Sys2Proof.Machine

/-! ### Address generation -/

/-- `Start(s)` (R122): the physical offset of the next byte the side would be served. -/
def State.start (s : State) (sd : Side) : Word := (s.own sd + s.pending sd) &&& s.mask

/-- `End(start, n)` (R123). -/
def State.windowEnd (s : State) (start n : Word) : Word := (start + n) &&& s.mask

/-- `Wraps(start, end)` (R124). -/
def wraps (start stop : Word) : Bool := decide (stop ≤ start) && stop != 0

/-- `Geometry(start, n)` (R125), asked for `1 ≤ n ≤ CAPACITY` only. -/
def State.geometry (s : State) (start n : Word) : List Segment :=
  let stop := s.windowEnd start n
  if wraps start stop then [⟨start, s.capacity - start⟩, ⟨0, stop⟩] else [⟨start, n⟩]

/-- `SegAddr(start, i)` (R127): the physical offset of byte `i` of a window. -/
def State.segAddr (s : State) (start : Word) (i : Nat) : Word := (start + BitVec.ofNat 64 i) &&& s.mask

/-- The bytes `bs` written from byte `i` of the window at `start` on, in order (R55, R146). -/
def State.writeWindow (s : State) (start : Word) : Nat → List Byte → Memory → Memory
  | _, [], m => m
  | i, b :: bs, m => s.writeWindow start (i + 1) bs (m.write (s.segAddr start i).toNat b)

/-- The copy into the data RAM of a write command (R146, R148). -/
def State.copyIn (s : State) (start : Word) (bs : List Byte) : State :=
  { s with ram := s.writeWindow start 0 bs s.ram }

/-- The `n` bytes of the window at `start`, in logical order (R55, R166, R168). -/
def State.copyOut (s : State) (start : Word) (n : Nat) : List Byte :=
  (List.range n).map fun i => s.memRead (s.segAddr start i) i

/-! ### Space calculator -/

/-- `Occ()` (R128). -/
def State.occ (s : State) : Word := s.head - s.tail

/-- `Free()` (R128). -/
def State.free (s : State) : Word := s.capacity - s.occ

/-- `PAvail(obs)` (R129). -/
def State.pAvail (s : State) (obs : Word) : Word := s.capacity - (s.head - obs) - s.pPending

/-- `CAvail(obs)` (R130). -/
def State.cAvail (s : State) (obs : Word) : Word := obs - s.tail - s.cPending

/-- The available bytes of a side for an observed peer counter (R129, R130, R134). -/
def State.avail (s : State) : Side → Word → Word
  | .P, obs => s.pAvail obs
  | .C, obs => s.cAvail obs

/-- `ArithBad(s, obs)` (R135), the sums computed as unbounded integers. -/
def State.arithBad (s : State) : Side → Word → Bool
  | .P, obs => decide (s.capacity.toNat < (s.head - obs).toNat + s.pPending.toNat)
  | .C, obs => decide (s.capacity.toNat < (obs - s.tail).toNat) || decide ((obs - s.tail).toNat < s.cPending.toNat)

/-! ### The access procedure -/

/-- `min` of two 64-bit unsigned values (R15). -/
def minWord (a b : Word) : Word := if a ≤ b then a else b

/-- What `AccessCore` answers (R134), with the state after its writes. -/
structure Access where
  status : Status
  n      : Word
  segs   : List Segment
  after  : State
  deriving DecidableEq, Repr

/-- `AccessCore(s, size, ap)` (R134). -/
def State.accessCore (s : State) (sd : Side) (size : Word) (ap : Bool) : Access :=
  let obs := s.readPeer sd
  if s.arithBad sd obs then ⟨.invalidArgument, 0, [], s.stickyFault sd .arith⟩
  else
    let avail := s.avail sd obs
    if ap = false ∧ avail < size then ⟨.outOfSpace, 0, [], s⟩
    else if size = 0 ∨ avail = 0 then ⟨.ok, 0, [], s⟩
    else
      let n := minWord size avail
      ⟨.ok, n, s.geometry (s.start sd) n, (s.setPending sd (s.pending sd + n)).setSeen sd obs⟩

/-- The response of a command that ends with what `AccessCore` answered (R142). -/
def Access.response (r : Access) : Response := (Response.plain r.status r.n).withSegs r.segs

end Sys2Proof.Machine
end

