-- ==== Sys2Proof/Machine/Flags.lean ====
section
/-! DEFINITION. The pointer comparators (spec/41_datapath.md R133), the window predicates and the valid-data detector
(R131, R132), the `FLAGS` register (spec/10_state.md R33) and the register map (R32; spec/44_status.md R202). -/

namespace Sys2Proof.Machine

/-! ### Comparators (R133) -/

/-- `EMPTY`. -/
def State.isEmpty (s : State) : Bool := s.head == s.tail

/-- `FULL`. -/
def State.isFull (s : State) : Bool := s.occ == s.capacity

/-- `VALID`: valid data present. -/
def State.hasData (s : State) : Bool := s.head != s.tail

/-- `FAULTED` (R33, R34). -/
def State.isFaulted (s : State) : Bool := s.fault != 0

/-! ### Windows (R131, R132) -/

/-- `InWindow(o, b, len)` (R131). -/
def State.inWindow (s : State) (o base len : Word) : Bool := decide (((o - base) &&& s.mask) < len)

/-- `ValidAt(o)`: the offset holds committed, unconsumed data. -/
def State.validAt (s : State) (o : Word) : Bool := s.inWindow o s.tail s.occ

/-- `FreeAt(o)`: the offset is free space. -/
def State.freeAt (s : State) (o : Word) : Bool := s.inWindow o s.head s.free

/-- `PWin(o)`: the offset is in the producer's open window. -/
def State.pWin (s : State) (o : Word) : Bool := s.inWindow o s.head s.pPending

/-- `CWin(o)`: the offset is in the consumer's open window. -/
def State.cWin (s : State) (o : Word) : Bool := s.inWindow o s.tail s.cPending

/-! ### The registers software reads -/

/-- One bit of a 64-bit register, at its place. -/
def bitAt (b : Bool) (i : Nat) : Word := if b then BitVec.twoPow 64 i else 0

/-- `FLAGS` (R33); bits 63:8 read as 0. -/
def State.flags (s : State) : Word :=
  bitAt s.isEmpty 0 ||| bitAt s.isFull 1 ||| bitAt s.hasData 2 ||| bitAt s.wb 3 ||| bitAt s.rb 4
    ||| bitAt s.pIntx 5 ||| bitAt s.cIntx 6 ||| bitAt s.isFaulted 7

/-- `RegValue(reg)` (R202) over the register map (R32); `none` for a reserved index. -/
def State.regValue (s : State) (reg : BitVec 8) : Option Word :=
  match reg.toNat with
  | 0x00 => some s.capacity
  | 0x01 => some s.mask
  | 0x02 => some s.head
  | 0x03 => some s.tail
  | 0x04 => some s.occ
  | 0x05 => some s.free
  | 0x06 => some s.flags
  | 0x07 => some s.pPending
  | 0x08 => some s.cPending
  | 0x09 => some s.pTailSeen
  | 0x0A => some s.cHeadSeen
  | 0x0B => some s.fault
  | 0x0C => some (s.pAvail s.tail)
  | 0x0D => some (s.cAvail s.head)
  | 0x0E => some (s.start .P)
  | 0x0F => some (s.start .C)
  | _ => none

/-- The four bits `PROBE` returns for an offset (R132, R204). -/
def State.probeBits (s : State) (o : Word) : Word :=
  bitAt (s.validAt o) 0 ||| bitAt (s.freeAt o) 1 ||| bitAt (s.pWin o) 2 ||| bitAt (s.cWin o) 3

end Sys2Proof.Machine
end

