-- ==== Sys2Proof/WellFormed.lean ====
section
/-! DEFINITION. Which command terms are well formed: those a port can deliver (spec/30_encoding.md R77, R80). The only
check a term can fail is the payload length of the three producer writes; every other operand is a full field. -/

namespace Sys2Proof

/-- R77: the payload's length must equal `OPA`. -/
def payloadFits (size : Word) (payload : List Byte) : Bool :=
  payload.length == size.toNat

/-- A well-formed command (R77). -/
def Instr.wellFormed : Instr → Bool
  | .pWrite size payload => payloadFits size payload
  | .pWritePart size payload => payloadFits size payload
  | .pWriteAtomic size payload => payloadFits size payload
  | .pNop | .cNop | .pStart | .pAccess _ | .pAccessPart _ | .pCommit | .pCancel | .pDwrite _ _
  | .cStart | .cAccess _ | .cAccessPart _ | .cCommit | .cCancel | .cRead _ | .cReadPart _ | .cReadAtomic _
  | .cDread _ | .pRdreg _ | .cRdreg _ | .pProbe _ | .cProbe _ => true

end Sys2Proof
end

