-- ==== Sys2Proof/Machine/Operands.lean ====
section
/-! DEFINITION. The checks of a command's operands that come before everything else (spec/60_exceptions.md R224, steps 1
and 2), and the transaction check (step 3), each as one operation the meanings are put together from. -/

namespace Sys2Proof.Machine

/-- Step 1, for the three producer writes: a payload whose length is not `OPA` is malformed (spec/30_encoding.md
R77, R81): `InvalidArgument`, no `FAULT` bit. Decoding lets no such command through (log entry 12). -/
def State.withPayload (s : State) (sd : Side) (size : Word) (payload : List Byte) (k : State) : State :=
  if payloadFits size payload then k else s.fail sd .invalidArgument none

/-- Step 2, for `DWRITE`, `DREAD` and `PROBE`: an offset at or above `CAPACITY` is malformed (spec/20_memory.md
R53): `InvalidArgument`, no `FAULT` bit. -/
def State.withOffset (s : State) (sd : Side) (o : Word) (k : State) : State :=
  if s.capacity ≤ o then s.fail sd .invalidArgument none else k

/-- Step 3, for the commands that need an open transaction: `NoTransaction` and the `NOTX` bit outside one (R220). -/
def State.withTx (s : State) (sd : Side) (k : State) : State :=
  if s.inTx sd then k else s.fail sd .noTransaction (some .noTx)

/-- Steps 3 and 4, for `START` and the atomic copies: `Busy` and the `BUSY` bit while a transaction is open, then
`WouldBlock` while the header guard is held (R220, R223). -/
def State.withIdle (s : State) (sd : Side) (k : State) : State :=
  if s.inTx sd then s.fail sd .busy (some .busy)
  else if s.guard sd then s.fail sd .wouldBlock none
  else k

end Sys2Proof.Machine
end

