-- ==== Sys2Proof/Machine/Transaction.lean ====
section
/-! DEFINITION. The operations both sides' commands share: the consumer is the mirror of the producer
(spec/43_consumer.md), so each is written once over the side. -/

namespace Sys2Proof.Machine

/-- `START` (R141, R161): `BeginGuard`, the transaction open, nothing pending. -/
def State.startTx (s : State) (sd : Side) : State :=
  if s.inTx sd then s.fail sd .busy (some .busy)
  else
    match s.beginGuard sd with
    | none => s.fail sd .wouldBlock none
    | some s' => ((s'.setInTx sd true).setPending sd 0).respond sd (.ok 0)

/-- `ACCESS` and `ACCESS.PART` (R142, R143, R162, R163). -/
def State.accessTx (s : State) (sd : Side) (size : Word) (ap : Bool) : State :=
  s.withTx sd ((s.accessCore sd size ap).after.respond sd (s.accessCore sd size ap).response)

/-- The end of a transaction, after its counter is released or not: nothing pending, the guard free, the side idle
(R144, R145, R164, R165). -/
def State.closeTx (s : State) (sd : Side) : State :=
  ((s.setPending sd 0).endGuard sd).setInTx sd false

/-- `COMMIT` (R144, R164). -/
def State.commitTx (s : State) (sd : Side) : State :=
  s.withTx sd (((s.incOwn sd (s.pending sd)).closeTx sd).respond sd (.ok (s.pending sd)))

/-- `CANCEL` (R145, R165). -/
def State.cancelTx (s : State) (sd : Side) : State :=
  s.withTx sd ((s.closeTx sd).respond sd (.ok (s.pending sd)))

/-- `RDREG` on a port (R202, R203). -/
def State.readReg (s : State) (port : Side) (reg : BitVec 8) : State :=
  match s.regValue reg with
  | none => s.fail port .invalidArgument none
  | some v => s.respond port { Response.ok 0 with rdata := v }

/-- `PROBE` on a port (R204, R205). -/
def State.probe (s : State) (port : Side) (o : Word) : State :=
  s.withOffset port o (s.respond port { Response.ok 0 with rdata := s.probeBits o })

end Sys2Proof.Machine
end

