-- ==== Sys2Proof/Machine/Producer.lean ====
section
/-! DEFINITION. The producer's commands (spec/42_producer.md R141 to R149). Each ends in a next state: a failing command
answers a status (spec/60_exceptions.md R244). -/

namespace Sys2Proof.Machine

/-- The outcome of a step of this machine. -/
abbrev Result := Host.Outcome State Fault Refusal

/-- `P.START` (R141). -/
def execPStart (s : State) : Result := .next (s.startTx .P)

/-- `P.ACCESS size` (R142). -/
def execPAccess (size : Word) (s : State) : Result := .next (s.accessTx .P size false)

/-- `P.ACCESS.PART size` (R143). -/
def execPAccessPart (size : Word) (s : State) : Result := .next (s.accessTx .P size true)

/-- `P.COMMIT` (R144). -/
def execPCommit (s : State) : Result := .next (s.commitTx .P)

/-- `P.CANCEL` (R145). -/
def execPCancel (s : State) : Result := .next (s.cancelTx .P)

/-- The copy of a write within the open transaction (R146, R147): the access, then the served bytes of the payload
into the window that starts where `Start(P)` stood before it. -/
def State.writeTx (s : State) (size : Word) (payload : List Byte) (ap : Bool) : State :=
  let r := s.accessCore .P size ap
  match r.status with
  | .ok => (r.after.copyIn (s.start .P) (payload.take r.n.toNat)).respond .P r.response
  | _ => r.after.respond .P r.response

/-- `P.WRITE size, payload` (R146). -/
def execPWrite (size : Word) (payload : List Byte) (s : State) : Result :=
  .next (s.withPayload .P size payload (s.withTx .P (s.writeTx size payload false)))

/-- `P.WRITE.PART size, payload` (R147). -/
def execPWritePart (size : Word) (payload : List Byte) (s : State) : Result :=
  .next (s.withPayload .P size payload (s.withTx .P (s.writeTx size payload true)))

/-- The body of `P.WRITE.ATOMIC` once the side is known to be idle (R148). -/
def State.writeAtomic (s : State) (size : Word) (payload : List Byte) : State :=
  let obs := s.readPeer .P
  if s.arithBad .P obs then s.fail .P .invalidArgument (some .arith)
  else if s.pAvail obs < size then s.fail .P .outOfSpace none
  else if size = 0 then s.respond .P (.ok 0)
  else (((s.copyIn (s.head &&& s.mask) payload).incOwn .P size).setSeen .P obs).respond .P (.ok size)

/-- `P.WRITE.ATOMIC size, payload` (R148). -/
def execPWriteAtomic (size : Word) (payload : List Byte) (s : State) : Result :=
  .next (s.withPayload .P size payload (s.withIdle .P (s.writeAtomic size payload)))

/-- `P.DWRITE o, b` (R149). -/
def execPDwrite (o : Word) (b : Byte) (s : State) : Result :=
  .next (s.withOffset .P o (s.withTx .P
    (if s.pWin o then (s.memWrite o b).respond .P (.ok 1) else s.fail .P .invalidArgument (some .window))))

end Sys2Proof.Machine
end

