-- ==== Sys2Proof/Machine/Consumer.lean ====
section
/-! DEFINITION. The consumer's commands (spec/43_consumer.md R161 to R169). -/

namespace Sys2Proof.Machine

/-- `C.START` (R161). -/
def execCStart (s : State) : Result := .next (s.startTx .C)

/-- `C.ACCESS size` (R162). -/
def execCAccess (size : Word) (s : State) : Result := .next (s.accessTx .C size false)

/-- `C.ACCESS.PART size` (R163). -/
def execCAccessPart (size : Word) (s : State) : Result := .next (s.accessTx .C size true)

/-- `C.COMMIT` (R164). -/
def execCCommit (s : State) : Result := .next (s.commitTx .C)

/-- `C.CANCEL` (R165). -/
def execCCancel (s : State) : Result := .next (s.cancelTx .C)

/-- The copy of a read within the open transaction (R166, R167): the access, then the served bytes of the window that
starts where `Start(C)` stood before it, in `RBYTES`. -/
def State.readTx (s : State) (size : Word) (ap : Bool) : State :=
  let r := s.accessCore .C size ap
  match r.status with
  | .ok => r.after.respond .C { r.response with rbytes := s.copyOut (s.start .C) r.n.toNat }
  | _ => r.after.respond .C r.response

/-- `C.READ size` (R166). -/
def execCRead (size : Word) (s : State) : Result := .next (s.withTx .C (s.readTx size false))

/-- `C.READ.PART size` (R167). -/
def execCReadPart (size : Word) (s : State) : Result := .next (s.withTx .C (s.readTx size true))

/-- The body of `C.READ.ATOMIC` once the side is known to be idle (R168). -/
def State.readAtomic (s : State) (size : Word) : State :=
  let obs := s.readPeer .C
  if s.arithBad .C obs then s.fail .C .invalidArgument (some .arith)
  else if s.cAvail obs < size then s.fail .C .outOfSpace none
  else if size = 0 then s.respond .C (.ok 0)
  else ((s.incOwn .C size).setSeen .C obs).respond .C
    { Response.ok size with rbytes := s.copyOut (s.tail &&& s.mask) size.toNat }

/-- `C.READ.ATOMIC size` (R168). -/
def execCReadAtomic (size : Word) (s : State) : Result := .next (s.withIdle .C (s.readAtomic size))

/-- `C.DREAD o` (R169). -/
def execCDread (o : Word) (s : State) : Result :=
  .next (s.withOffset .C o (s.withTx .C
    (if s.cWin o then s.respond .C { Response.ok 1 with rdata := (s.memRead o 0).setWidth 64 }
     else s.fail .C .invalidArgument (some .window))))

end Sys2Proof.Machine
end

