-- ==== Sys2Proof/Machine/Observe.lean ====
section
/-! DEFINITION. The no-operation, register read and probe commands of both ports (spec/44_status.md R200 to R205). None
changes any state (R59). -/

namespace Sys2Proof.Machine

/-- `P.NOP` (R200). -/
def execPNop (s : State) : Result := .next (s.respond .P (.ok 0))

/-- `C.NOP` (R201). -/
def execCNop (s : State) : Result := .next (s.respond .C (.ok 0))

/-- `P.RDREG reg` (R202). -/
def execPRdreg (reg : BitVec 8) (s : State) : Result := .next (s.readReg .P reg)

/-- `C.RDREG reg` (R203). -/
def execCRdreg (reg : BitVec 8) (s : State) : Result := .next (s.readReg .C reg)

/-- `P.PROBE o` (R204). -/
def execPProbe (o : Word) (s : State) : Result := .next (s.probe .P o)

/-- `C.PROBE o` (R205). -/
def execCProbe (o : Word) (s : State) : Result := .next (s.probe .C o)

end Sys2Proof.Machine
end

