-- ==== Sys2Proof/Machine/Dispatch.lean ====
section
/-! DEFINITION. One arm per command (spec/30_encoding.md R88): a direct call of its meaning. -/

namespace Sys2Proof.Machine

def exec (i : Instr) (s : State) : Host.Outcome State Fault Refusal :=
  match i with
  | .pNop => Sys2Proof.Machine.execPNop s
  | .cNop => Sys2Proof.Machine.execCNop s
  | .pStart => Sys2Proof.Machine.execPStart s
  | .pAccess size => Sys2Proof.Machine.execPAccess size s
  | .pAccessPart size => Sys2Proof.Machine.execPAccessPart size s
  | .pCommit => Sys2Proof.Machine.execPCommit s
  | .pCancel => Sys2Proof.Machine.execPCancel s
  | .pWrite size payload => Sys2Proof.Machine.execPWrite size payload s
  | .pWritePart size payload => Sys2Proof.Machine.execPWritePart size payload s
  | .pWriteAtomic size payload => Sys2Proof.Machine.execPWriteAtomic size payload s
  | .pDwrite o b => Sys2Proof.Machine.execPDwrite o b s
  | .cStart => Sys2Proof.Machine.execCStart s
  | .cAccess size => Sys2Proof.Machine.execCAccess size s
  | .cAccessPart size => Sys2Proof.Machine.execCAccessPart size s
  | .cCommit => Sys2Proof.Machine.execCCommit s
  | .cCancel => Sys2Proof.Machine.execCCancel s
  | .cRead size => Sys2Proof.Machine.execCRead size s
  | .cReadPart size => Sys2Proof.Machine.execCReadPart size s
  | .cReadAtomic size => Sys2Proof.Machine.execCReadAtomic size s
  | .cDread o => Sys2Proof.Machine.execCDread o s
  | .pRdreg reg => Sys2Proof.Machine.execPRdreg reg s
  | .cRdreg reg => Sys2Proof.Machine.execCRdreg reg s
  | .pProbe o => Sys2Proof.Machine.execPProbe o s
  | .cProbe o => Sys2Proof.Machine.execCProbe o s

end Sys2Proof.Machine
end

