-- ==== Sys2Proof/Decode.lean ====
section
/-! DEFINITION. The decoder of spec/30_encoding.md R80, total on every command of either port and rejecting by name; the
encoder of the same tables (R71, R88); the opcode map itself (R88); and the bit numbering of
spec/opcode_table.json (log entry 11). -/

namespace Sys2Proof

/-! ### The fields of the command word (R71) -/

/-- `OP`, bits 3:0. -/
def fieldOp (w : CmdWord) : BitVec 4 := w.extractLsb' 0 4

/-- `AP`, bit 4. -/
def fieldAp (w : CmdWord) : Bool := w.getLsbD 4

/-- `RES0`, bits 6:5. -/
def fieldRes0 (w : CmdWord) : BitVec 2 := w.extractLsb' 5 2

/-- `SIDE`, bit 7 (R72): 0 the producer, 1 the consumer. -/
def fieldSide (w : CmdWord) : Side := if w.getLsbD 7 then .C else .P

/-- `REG`, bits 15:8. -/
def fieldReg (w : CmdWord) : BitVec 8 := w.extractLsb' 8 8

/-- `RES1`, bits 31:16. -/
def fieldRes1 (w : CmdWord) : BitVec 16 := w.extractLsb' 16 16

/-! ### Decoding -/

/-- Why a command is `Malformed` (R80, R81). Every one of them has the same outcome: `InvalidArgument`, no state
change, no `FAULT` bit. -/
inductive Malformed where
  /-- non-zero `RES0` or `RES1` (R76) -/
  | reservedBits
  /-- `SIDE` is not the port's side (R72) -/
  | wrongSide
  /-- `OP` in `0xB` to `0xF` (R73) -/
  | reservedOp
  /-- non-zero `REG` with `OP ≠ 0x7` (R75) -/
  | strayReg
  /-- `AP = 1` with `OP` not `0x2` or `0x5` (R74) -/
  | strayPartial
  /-- `OP = 0x8` on the consumer's side (R81) -/
  | writeByteOnConsumer
  /-- `OP = 0x9` on the producer's side (R81) -/
  | readByteOnProducer
  /-- the payload's length is not `OPA` (R77) -/
  | payloadLength
  deriving DecidableEq, Repr

/-- What decoding a command gives (R80): exactly one command of the table, or `Malformed`. -/
inductive Decoded where
  | instr (i : Instr)
  | malformed (why : Malformed)
  deriving DecidableEq, Repr

/-- The command of R88 for a side, an `OP` value and `AP`, with its operands. It is asked only for the
combinations R80 has let through; any other answers as a reserved `OP`. -/
def selectRow (side : Side) (op : Nat) (ap : Bool) (reg : BitVec 8) (c : Command) : Decoded :=
  match side, op, ap with
  | .P, 0x0, false => .instr .pNop
  | .C, 0x0, false => .instr .cNop
  | .P, 0x1, false => .instr .pStart
  | .C, 0x1, false => .instr .cStart
  | .P, 0x2, false => .instr (.pAccess c.opa)
  | .P, 0x2, true => .instr (.pAccessPart c.opa)
  | .C, 0x2, false => .instr (.cAccess c.opa)
  | .C, 0x2, true => .instr (.cAccessPart c.opa)
  | .P, 0x3, false => .instr .pCommit
  | .C, 0x3, false => .instr .cCommit
  | .P, 0x4, false => .instr .pCancel
  | .C, 0x4, false => .instr .cCancel
  | .P, 0x5, false => .instr (.pWrite c.opa c.payload)
  | .P, 0x5, true => .instr (.pWritePart c.opa c.payload)
  | .C, 0x5, false => .instr (.cRead c.opa)
  | .C, 0x5, true => .instr (.cReadPart c.opa)
  | .P, 0x6, false => .instr (.pWriteAtomic c.opa c.payload)
  | .C, 0x6, false => .instr (.cReadAtomic c.opa)
  | .P, 0x7, false => .instr (.pRdreg reg)
  | .C, 0x7, false => .instr (.cRdreg reg)
  | .P, 0x8, false => .instr (.pDwrite c.opa c.opb)
  | .C, 0x9, false => .instr (.cDread c.opa)
  | .P, 0xA, false => .instr (.pProbe c.opa)
  | .C, 0xA, false => .instr (.cProbe c.opa)
  | _, _, _ => .malformed .reservedOp

/-- The decode procedure of R80 up to the payload check. -/
def decodeWord (port : Side) (c : Command) : Decoded :=
  if fieldRes1 c.word ≠ 0 ∨ fieldRes0 c.word ≠ 0 then .malformed .reservedBits
  else if fieldSide c.word ≠ port then .malformed .wrongSide
  else if 0xB ≤ (fieldOp c.word).toNat then .malformed .reservedOp
  else if fieldOp c.word ≠ 0x7 ∧ fieldReg c.word ≠ 0 then .malformed .strayReg
  else if fieldAp c.word = true ∧ ¬ (fieldOp c.word = 0x2 ∨ fieldOp c.word = 0x5) then .malformed .strayPartial
  else if fieldOp c.word = 0x8 ∧ port = .C then .malformed .writeByteOnConsumer
  else if fieldOp c.word = 0x9 ∧ port = .P then .malformed .readByteOnProducer
  else selectRow port (fieldOp c.word).toNat (fieldAp c.word) (fieldReg c.word) c

/-- Decoding a command that arrives on a port (R80): the word, then the payload's length (R77). -/
def decode (port : Side) (c : Command) : Decoded :=
  match decodeWord port c with
  | .malformed why => .malformed why
  | .instr i => if i.wellFormed then .instr i else .malformed .payloadLength

/-! ### Encoding -/

/-- The command word of a command (R85, R88). -/
def encodeWord : Instr → CmdWord
  | .pNop => 0x00000000
  | .cNop => 0x00000080
  | .pStart => 0x00000001
  | .cStart => 0x00000081
  | .pAccess _ => 0x00000002
  | .cAccess _ => 0x00000082
  | .pAccessPart _ => 0x00000012
  | .cAccessPart _ => 0x00000092
  | .pCommit => 0x00000003
  | .cCommit => 0x00000083
  | .pCancel => 0x00000004
  | .cCancel => 0x00000084
  | .pWrite _ _ => 0x00000005
  | .cRead _ => 0x00000085
  | .pWritePart _ _ => 0x00000015
  | .cReadPart _ => 0x00000095
  | .pWriteAtomic _ _ => 0x00000006
  | .cReadAtomic _ => 0x00000086
  | .pRdreg reg => 0x00000007 ||| (reg.setWidth 32 <<< 8)
  | .cRdreg reg => 0x00000087 ||| (reg.setWidth 32 <<< 8)
  | .pDwrite _ _ => 0x00000008
  | .cDread _ => 0x00000089
  | .pProbe _ => 0x0000000A
  | .cProbe _ => 0x0000008A

/-- The whole command (R77, R85): an operand the command ignores is 0 or empty. -/
def encode (i : Instr) : Command :=
  match i with
  | .pWrite size payload | .pWritePart size payload | .pWriteAtomic size payload =>
    { word := encodeWord i, opa := size, opb := 0, payload := payload }
  | .pAccess v | .pAccessPart v | .cAccess v | .cAccessPart v | .cRead v | .cReadPart v | .cReadAtomic v
  | .cDread v | .pProbe v | .cProbe v => { word := encodeWord i, opa := v, opb := 0, payload := [] }
  | .pDwrite o b => { word := encodeWord i, opa := o, opb := b, payload := [] }
  | .pNop | .cNop | .pStart | .cStart | .pCommit | .cCommit | .pCancel | .cCancel | .pRdreg _ | .cRdreg _ =>
    { word := encodeWord i, opa := 0, opb := 0, payload := [] }

/-! ### The opcode map -/

/-- One row of the opcode map (R88): the port, the match and the mask. -/
structure OpcodeRow where
  mnemonic : String
  port     : Side
  value    : CmdWord
  mask     : CmdWord
  deriving DecidableEq, Repr

/-- The opcode map (R88), row by row. -/
def opcodeMap : List OpcodeRow :=
  [ ⟨"P.NOP", .P, 0x00000000, 0xFFFFFFFF⟩,
    ⟨"C.NOP", .C, 0x00000080, 0xFFFFFFFF⟩,
    ⟨"P.START", .P, 0x00000001, 0xFFFFFFFF⟩,
    ⟨"P.ACCESS", .P, 0x00000002, 0xFFFFFFFF⟩,
    ⟨"P.ACCESS.PART", .P, 0x00000012, 0xFFFFFFFF⟩,
    ⟨"P.COMMIT", .P, 0x00000003, 0xFFFFFFFF⟩,
    ⟨"P.CANCEL", .P, 0x00000004, 0xFFFFFFFF⟩,
    ⟨"P.WRITE", .P, 0x00000005, 0xFFFFFFFF⟩,
    ⟨"P.WRITE.PART", .P, 0x00000015, 0xFFFFFFFF⟩,
    ⟨"P.WRITE.ATOMIC", .P, 0x00000006, 0xFFFFFFFF⟩,
    ⟨"P.DWRITE", .P, 0x00000008, 0xFFFFFFFF⟩,
    ⟨"C.START", .C, 0x00000081, 0xFFFFFFFF⟩,
    ⟨"C.ACCESS", .C, 0x00000082, 0xFFFFFFFF⟩,
    ⟨"C.ACCESS.PART", .C, 0x00000092, 0xFFFFFFFF⟩,
    ⟨"C.COMMIT", .C, 0x00000083, 0xFFFFFFFF⟩,
    ⟨"C.CANCEL", .C, 0x00000084, 0xFFFFFFFF⟩,
    ⟨"C.READ", .C, 0x00000085, 0xFFFFFFFF⟩,
    ⟨"C.READ.PART", .C, 0x00000095, 0xFFFFFFFF⟩,
    ⟨"C.READ.ATOMIC", .C, 0x00000086, 0xFFFFFFFF⟩,
    ⟨"C.DREAD", .C, 0x00000089, 0xFFFFFFFF⟩,
    ⟨"P.RDREG", .P, 0x00000007, 0xFFFF00FF⟩,
    ⟨"C.RDREG", .C, 0x00000087, 0xFFFF00FF⟩,
    ⟨"P.PROBE", .P, 0x0000000A, 0xFFFFFFFF⟩,
    ⟨"C.PROBE", .C, 0x0000008A, 0xFFFFFFFF⟩ ]

/-- A word on a port matches a row when `(WORD & mask) = match` and the row's port is the command's port (R88). -/
def OpcodeRow.matches (r : OpcodeRow) (port : Side) (w : CmdWord) : Bool :=
  r.port == port && (w &&& r.mask) == r.value

/-! ### The table's bit numbering (log entry 11) -/

/-- `k` bytes of a number, the least significant first. -/
def bytesOf (w : Nat) : Nat → List Byte
  | 0 => []
  | k + 1 => BitVec.ofNat 8 w :: bytesOf (w >>> 8) k

/-- The command whose bits are `w`, numbered from bit 0 of `WORD`: `WORD` in bits 31:0, then `OPA` in 95:32, `OPB`
in 103:96, and whatever bits the row has above them as payload bytes. Bits from `nbits` up are zero.
DESIGN CHOICE (log entry 11): the spec leaves the port's bit layout open (R70, R271). -/
def commandOfBits (nbits w : Nat) : Command :=
  { word := BitVec.ofNat 32 (w % 2 ^ nbits)
    opa := BitVec.ofNat 64 ((w % 2 ^ nbits) >>> 32)
    opb := BitVec.ofNat 8 ((w % 2 ^ nbits) >>> 96)
    payload := bytesOf ((w % 2 ^ nbits) >>> 104) ((nbits - 104) / 8) }

/-- The port a table word is issued on: the one its `SIDE` bit names (R72; log entry 11). -/
def portOfBits (w : Nat) : Side := fieldSide (BitVec.ofNat 32 w)

/-- The command the decoder reads from an instruction whose bits are `w`. -/
def decodeTableWord (nbits w : Nat) : Option Instr :=
  match decode (portOfBits w) (commandOfBits nbits w) with
  | .instr i => some i
  | .malformed _ => none

end Sys2Proof
end

