-- ==== Sys2Proof/Machine/Fetch.lean ====
section
/-! DEFINITION. The arbiter and the taking of a command from its port (spec/20_memory.md R60; spec/60_exceptions.md R240,
R241), the plan of its `LAGGED` peer read (log entry 8), and the placing of a command where the next step takes it (log entries 2, 4, 11). -/

namespace Sys2Proof.Machine

/-- The commands waiting on a port, oldest first. -/
def State.queue (s : State) : Side → List Command
  | .P => s.pQueue
  | .C => s.cQueue

/-- The arbiter's next choice when both ports wait, and the choices after it: the listed grants, or, when none is
listed, a freshly drawn block that serves one port a free number of times and at least once, then the other port. Every block
holds both ports, so a waiting port is served after finitely many commands of the other (R241; log entry 4). -/
def State.plan (s : State) : Side × List Side :=
  match s.grants with
  | g :: gs => (g, gs)
  | [] =>
    let first := if (Config.freeGrant s.tick).1 then Side.C else Side.P
    (first, List.replicate (Config.freeGrant s.tick).2 first ++ [first.other])

/-- A command taken from a port: the port, the command, and the state without it. -/
structure Fetched where
  port  : Side
  cmd   : Command
  after : State
  deriving DecidableEq, Repr

/-- The state once the oldest command of a port is taken, leaving `rest`: the arbiter's choices go on to `gs`, and the
command gets an index of its own for its free values (log entry 5). -/
def State.take (s : State) (port : Side) (rest : List Command) (gs : List Side) : State :=
  match port with
  | .P => { s with pQueue := rest, grants := gs, tick := s.tick + 1 }
  | .C => { s with cQueue := rest, grants := gs, tick := s.tick + 1 }

/-- The command comes to `ReadPeer` in this state: its side's transaction is open for a command within one (R134, R142,
R143, R146, R147, R162, R163, R166, R167), and closed with the guard free for an atomic copy (R148, R168). -/
def State.readsPeer (s : State) (i : Instr) : Bool :=
  match i with
  | .pAccess _ | .pAccessPart _ | .pWrite _ _ | .pWritePart _ _ => s.pIntx
  | .cAccess _ | .cAccessPart _ | .cRead _ | .cReadPart _ => s.cIntx
  | .pWriteAtomic _ _ => !s.pIntx && !s.wb
  | .cReadAtomic _ => !s.cIntx && !s.rb
  | .pNop | .cNop | .pStart | .cStart | .pCommit | .cCommit | .pCancel | .cCancel | .pDwrite _ _ | .cDread _
  | .pRdreg _ | .cRdreg _ | .pProbe _ | .cProbe _ => false

/-- The plan of the taken command's `LAGGED` read, if it makes one (log entry 8). -/
def State.planRead (s : State) (port : Side) (c : Command) : State :=
  match s.cfg.peerView, decode port c with
  | .lagged, .instr i => if s.readsPeer i then s.planLag port else s
  | .lagged, .malformed _ => s
  | .current, _ => s

/-- The command of a port, taken with its read planned. -/
def State.takeFrom (s : State) (port : Side) (c : Command) (rest : List Command) (gs : List Side) : Fetched :=
  ⟨port, c, (s.take port rest gs).planRead port c⟩

/-- The next command of the apply order (R60): the only waiting port's, or the one the arbiter chooses; none when no
port has a command. Each taken command uses up one listed grant. -/
def State.fetch (s : State) : Option Fetched :=
  match s.pQueue, s.cQueue with
  | [], [] => none
  | c :: rest, [] => some (s.takeFrom .P c rest s.grants.tail)
  | [], c :: rest => some (s.takeFrom .C c rest s.grants.tail)
  | p :: ps, c :: cs =>
    match s.plan with
    | (.P, gs) => some (s.takeFrom .P p ps gs)
    | (.C, gs) => some (s.takeFrom .C c cs gs)

/-- The state with a command in front of a port's queue, granted next, and no reset asserted: the next step takes
exactly it. -/
def State.placeNext (s : State) (port : Side) (c : Command) : State :=
  match port with
  | .P => { s with pQueue := c :: s.pQueue, grants := .P :: s.grants, resetIn := false }
  | .C => { s with cQueue := c :: s.cQueue, grants := .C :: s.grants, resetIn := false }

end Sys2Proof.Machine
end

