-- ==== Sys2Proof/Machine/Step.lean ====
section
/-! DEFINITION. One step: reset if it is asserted, else the next command of the apply order (spec/20_memory.md R58, R60;
spec/70_reset_and_hazards.md R251), and where the host places a command (log entry 11). -/

namespace Sys2Proof.Machine

/-- Reset takes effect between two commands (R251). A command that decodes runs; a malformed one answers
`InvalidArgument` on its port and changes nothing (R80, R81). With no command waiting nothing happens (log entry 9). -/
def step (s : State) : Host.Outcome State Fault Refusal :=
  if s.resetIn then .next s.applyReset
  else
    match s.fetch with
    | none => .next s
    | some f =>
      match decode f.port f.cmd with
      | .instr i => exec i f.after
      | .malformed _ => .next (f.after.fail f.port .invalidArgument none)

/-- The state with the table word `w` as the next command of the port its `SIDE` bit names. -/
def State.withFetchWord (s : State) (nbits w : Nat) : State :=
  s.placeNext (portOfBits w) (commandOfBits nbits w)

end Sys2Proof.Machine
end

