-- ==== Sys2Proof/Machine/Env.lean ====
section
/-! DEFINITION. What the outside world can do to the block between two steps: issue a command on a port
(spec/60_exceptions.md R240), assert reset (spec/70_reset_and_hazards.md R250), and reach the data RAM by an agent's own
memory path (R261, spec/20_memory.md R52). Also the loading of a program in the notation of spec/30_encoding.md R87. -/

namespace Sys2Proof.Machine

/-- An action of the environment. -/
inductive EnvAction where
  /-- an agent issues a command on its port (R70, R240) -/
  | issue (port : Side) (c : Command)
  /-- the reset input is asserted (R250) -/
  | assertReset
  /-- the producer writes a byte of the mapped data region by its own path (R261) -/
  | ownWrite (addr : Nat) (b : Byte)
  /-- the consumer reads a byte of the mapped data region by its own path (R261) -/
  | ownRead (addr : Nat)
  deriving DecidableEq, Repr

/-- A command issued on a port waits behind the earlier ones (R60, R240). -/
def State.issue (s : State) (port : Side) (c : Command) : State :=
  match port with
  | .P => { s with pQueue := s.pQueue ++ [c] }
  | .C => { s with cQueue := s.cQueue ++ [c] }

/-- The physical offset at an address of the mapped data region, `DATA_BASE + offset` (spec/00_scope.md R10); none
outside the region (log entry 13). -/
def State.offsetAt (s : State) (addr : Nat) : Option Word :=
  if s.cfg.dataBase ≤ addr ∧ addr - s.cfg.dataBase < s.capacity.toNat then
    some (BitVec.ofNat 64 (addr - s.cfg.dataBase))
  else none

/-- The address of a segment in an agent's address space (R10, R78). -/
def State.segmentAddress (s : State) (g : Segment) : Nat := s.cfg.dataBase + g.off.toNat

/-- The command ends its side's transaction by publishing it. -/
def isCommit (i : Instr) : Bool := i == .pCommit || i == .cCommit

/-- The command ends its side's transaction by discarding it. -/
def isCancel (i : Instr) : Bool := i == .pCancel || i == .cCancel

/-- The first of a port's commands that ends a transaction is a `COMMIT`. -/
def commitFirst (port : Side) : List Command → Bool
  | [] => false
  | c :: cs =>
    match decode port c with
    | .malformed _ => commitFirst port cs
    | .instr i => if isCommit i then true else if isCancel i then false else commitFirst port cs

/-- The agent has issued the `COMMIT` that ends its open transaction, so that duties 2 and 3 of R261 forbid it any
further own-path access in it (log entry 13). -/
def State.commitIssued (s : State) (port : Side) : Bool := commitFirst port (s.queue port)

/-- What the consumer reads by its own path at an offset (R261): as `C.DREAD` would, with a draw for an unwritten
byte. DESIGN CHOICE (log entry 13): R52 leaves own-path accesses outside the spec; `env` asks for the byte at a tick
that no command and no other own-path read has, so the draw is tied to no other (R50). -/
def State.ownPathByte (s : State) (o : Word) : Byte := s.memRead o 0

/-- The consumer's own-path read at an address of the mapped region: it takes a tick of its own and is recorded with
the byte it returns. No command reads the record (log entry 13). -/
def State.ownPathRead (s : State) (addr : Nat) (o : Word) : State :=
  let t := { s with tick := s.tick + 1 }
  { t with ownReads := s.ownReads ++ [(addr, t.ownPathByte o)] }

/-- An action of the environment on the machine. An own-path access that keeps duties 1 to 3 of R261 has its
effect; one that breaks one of them stops the model, since the spec says nothing of what follows (log entry 13). -/
def env (a : EnvAction) (s : State) : Host.Outcome State Fault Refusal :=
  match a with
  | .issue port c => .next (s.issue port c)
  | .assertReset => .next { s with resetIn := true }
  | .ownWrite addr b =>
    match s.offsetAt addr with
    | none => .fault .ownPathOutsideRegion
    | some o =>
      if !(s.pIntx && s.pWin o) then .fault .ownPathOutsideWindow
      else if s.commitIssued .P then .fault .ownPathAfterCommit
      else .next (s.memWrite o b)
  | .ownRead addr =>
    match s.offsetAt addr with
    | none => .fault .ownPathOutsideRegion
    | some o =>
      if !(s.cIntx && s.cWin o) then .fault .ownPathOutsideWindow
      else if s.commitIssued .C then .fault .ownPathAfterCommit
      else .next (s.ownPathRead addr o)

/-- A program in the notation of R87: lines `<port>: <command>`, their order the apply order. -/
abbrev Program := List (Side × Command)

/-- A program issued on the two ports, with the arbiter's choices listed in the program's order (R87; log entry 4). It
is the apply order of the run when no command waited and no grant was listed before. -/
def State.load (s : State) (prog : Program) : State :=
  let s' := prog.foldl (fun t line => t.issue line.1 line.2) s
  { s' with grants := s.grants ++ prog.map Prod.fst }

end Sys2Proof.Machine
end

