-- ==== Sys2Proof/Safety.lean ====
section
/-! DEFINITION. What counts as a good state and a good run: the invariants of spec/10_state.md R26 and R37, the accepted
final state and the observation of a run (spec/60_exceptions.md R243, R244), and the stream of committed bytes the
block carries (spec/20_memory.md R61). -/

namespace Sys2Proof.Machine

/-! ### Invariants (R37) -/

/-- Item 1 (R26): at most `CAPACITY` bytes are committed and unconsumed. -/
abbrev State.CounterInv (s : State) : Prop := s.occ.toNat ≤ s.capacity.toNat

/-- Items 2 and 3: each guard is its side's transaction flag, and nothing is pending outside a transaction. -/
abbrev State.TxInv (s : State) : Prop :=
  s.wb = s.pIntx ∧ s.rb = s.cIntx ∧ (s.pIntx = false → s.pPending = 0) ∧ (s.cIntx = false → s.cPending = 0)

/-- Item 4: `P_TAILSEEN` is at or behind `TAIL`, and the producer's window lies in free space. -/
abbrev State.ProducerInv (s : State) : Prop :=
  (s.tail - s.pTailSeen).toNat + (s.head - s.tail).toNat ≤ s.capacity.toNat ∧
    (s.head - s.pTailSeen).toNat + s.pPending.toNat ≤ s.capacity.toNat

/-- Item 5: `C_HEADSEEN` is at or behind `HEAD`, and the consumer's window lies in committed data. -/
abbrev State.ConsumerInv (s : State) : Prop :=
  (s.cHeadSeen - s.tail).toNat ≤ (s.head - s.tail).toNat ∧ s.cPending.toNat ≤ (s.cHeadSeen - s.tail).toNat

/-- The invariants 1 to 5 of R37 together. -/
abbrev State.Inv (s : State) : Prop := s.CounterInv ∧ s.TxInv ∧ s.ProducerInv ∧ s.ConsumerInv

/-- Item 6 (R64): the two open windows share no physical offset. -/
abbrev State.WindowsDisjoint (s : State) : Prop :=
  ∀ o : Word, o < s.capacity → ¬ (s.pWin o = true ∧ s.cWin o = true)

/-- The data RAM is in canonical form and holds existing offsets only (R50, R53). -/
abbrev State.RamInv (s : State) : Prop := s.ram.wf = true ∧ s.ram.within s.capacity.toNat = true

/-- The reserved bits of `FAULT` are clear (R34). -/
abbrev State.FaultReservedClear (s : State) : Prop := s.fault &&& 0xFFFFFFFFFFFFF0F0#64 = 0

/-! ### Runs (R243, R244) -/

/-- The run is over: no agent has a command left that was issued and not applied, and no reset is asserted.
DESIGN CHOICE (log entry 19): R243 ends a run when the agents have no further command to issue, which no state of the
block shows; the model takes the empty ports for it. So a moment between two commands of an agent that issues one at a
time counts as over as well: whoever reads a run must ask at its last state only. -/
def State.runOver (s : State) : Bool := s.pQueue.isEmpty && s.cQueue.isEmpty && !s.resetIn

/-- An accepted final state (R243): both sides idle, no misuse recorded. -/
def State.accepted (s : State) : Bool := !s.pIntx && !s.cIntx && s.fault == 0

/-- The fault reading of R244: a misuse is recorded, or the run has ended with a transaction open, where the end is as
`State.runOver` takes it (log entry 19). -/
def State.runFaulted (s : State) : Bool := s.isFaulted || (s.runOver && (s.pIntx || s.cIntx))

/-- The committed, unconsumed bytes in stream order (R61, R132): what the data RAM holds at logical offsets `TAIL` to
`HEAD - 1`, nothing where a served byte was never written. -/
def State.committed (s : State) : List (Option Byte) :=
  (List.range s.occ.toNat).map fun i => s.ram.read? (s.segAddr s.tail i).toNat

/-- The bytes of the producer's open window in stream order: logical offsets `HEAD` to `HEAD + P_PENDING - 1`. -/
def State.pendingBytes (s : State) : List (Option Byte) :=
  (List.range s.pPending.toNat).map fun i => s.ram.read? (s.segAddr s.head i).toNat

/-- What is observed of an accepted run (R243). -/
structure Observation where
  responses : List (Side × Response)
  head      : Word
  tail      : Word
  bytes     : List (Option Byte)
  deriving DecidableEq, Repr

/-- The observation of a run at its final state, if it is over and accepted (R243). -/
def State.observation (s : State) : Option Observation :=
  if s.runOver && s.accepted then
    some { responses := s.responses, head := s.head, tail := s.tail, bytes := s.committed }
  else none

end Sys2Proof.Machine
end

