-- ==== Sys2Proof/Certificates/Slice0/Obligations.lean ====
section
/-! DEFINITION. The statements for the provers. The vocabulary `Sys2Proof.Spec` reads the spec's formulas over natural
numbers and writes the state a rule leaves field by field, so that a statement does not repeat a definition of the model. -/

open Sys2Proof Sys2Proof.Machine

/-! ### Vocabulary -/

/-- `CAPACITY = 2^CAP_LOG2` as a number (spec/00_scope.md R6). -/
abbrev Sys2Proof.Spec.cap (s : State) : Nat := 2 ^ s.cfg.capLog2.val

/-- A response as the table of spec/30_encoding.md R78 lays it out: the segments given as numbers. -/
def Sys2Proof.Spec.response (st : Status) (n : Nat) (segs : List (Nat × Nat)) (rdata : Word) (rbytes : List Byte) :
    Response :=
  { status := st
    n := BitVec.ofNat 64 n
    nseg := BitVec.ofNat 2 segs.length
    aOff := BitVec.ofNat 64 (segs[0]?.getD (0, 0)).1
    aLen := BitVec.ofNat 64 (segs[0]?.getD (0, 0)).2
    bOff := BitVec.ofNat 64 (segs[1]?.getD (0, 0)).1
    bLen := BitVec.ofNat 64 (segs[1]?.getD (0, 0)).2
    rdata := rdata
    rbytes := rbytes }

/-- The state with one more response, and nothing else changed. -/
def Sys2Proof.Spec.answer (s : State) (port : Side) (r : Response) : State :=
  { s with responses := s.responses ++ [(port, r)] }

/-- The state after a failing command: the bits of `FAULT` set, the status answered, and nothing else changed
(spec/60_exceptions.md R220, R223). -/
def Sys2Proof.Spec.reject (s : State) (port : Side) (st : Status) (bits : Word) : State :=
  Spec.answer { s with fault := s.fault ||| bits } port (Spec.response st 0 [] 0 [])

/-- The segments of a window of `n` bytes from offset `start` (spec/41_datapath.md R125, R126): two exactly when it
runs over the physical end, none when it is empty. -/
def Sys2Proof.Spec.segments (cap start n : Nat) : List (Nat × Nat) :=
  if n = 0 then []
  else if start + n ≤ cap then [(start, n)]
  else [(start, cap - start), (0, start + n - cap)]

/-- The physical offset of the next byte a side would be served (R122). -/
def Sys2Proof.Spec.start (s : State) : Side → Nat
  | .P => (s.head.toNat + s.pPending.toNat) % Spec.cap s
  | .C => (s.tail.toNat + s.cPending.toNat) % Spec.cap s

/-- The arithmetic assertion of R135 holds for the peer counter the command observes. -/
abbrev Sys2Proof.Spec.arithOk (s : State) : Side → Prop
  | .P => (s.head - s.readPeer .P).toNat + s.pPending.toNat ≤ Spec.cap s
  | .C => (s.readPeer .C - s.tail).toNat ≤ Spec.cap s ∧ s.cPending.toNat ≤ (s.readPeer .C - s.tail).toNat

/-- The available bytes of a side for the peer counter the command observes (R129, R130). -/
def Sys2Proof.Spec.avail (s : State) : Side → Nat
  | .P => Spec.cap s - (s.head - s.readPeer .P).toNat - s.pPending.toNat
  | .C => (s.readPeer .C - s.tail).toNat - s.cPending.toNat

/-- The state after `n` bytes are served to a side (R134): its pending count grows and its snapshot is the counter it
observed; a zero-byte result changes nothing. -/
def Sys2Proof.Spec.grown (s : State) (sd : Side) (n : Nat) : State :=
  if n = 0 then s
  else
    match sd with
    | .P => { s with pPending := s.pPending + BitVec.ofNat 64 n, pTailSeen := s.readPeer .P }
    | .C => { s with cPending := s.cPending + BitVec.ofNat 64 n, cHeadSeen := s.readPeer .C }

/-- The segments answered when `n` bytes are served (R134, R142). -/
def Sys2Proof.Spec.served (s : State) (sd : Side) (n : Nat) : List (Nat × Nat) :=
  Spec.segments (Spec.cap s) (Spec.start s sd) n

/-- `m'` is `m` with `bytes` stored in the window at offset `start`, and every other byte as before (R55, R127). -/
def Sys2Proof.Spec.Stored (m m' : Memory) (cap start : Nat) (bytes : List Byte) : Prop :=
  (∀ (i : Nat) (h : i < bytes.length), m'.read? ((start + i) % cap) = some bytes[i]) ∧
    ∀ a : Nat, (∀ i < bytes.length, a ≠ (start + i) % cap) → m'.read? a = m.read? a

/-- `rb` is what reading the `n` bytes of the window at offset `start` can return (R50, R63): the value written, any
value for an unwritten byte. -/
def Sys2Proof.Spec.Loaded (m : Memory) (cap start n : Nat) (rb : List Byte) : Prop :=
  rb.length = n ∧ ∀ (i : Nat) (b : Byte), i < n → m.read? ((start + i) % cap) = some b → rb[i]? = some b

/-- Offset `o` is the physical offset of one of the `len` logical bytes from `base` on (R131). -/
def Sys2Proof.Spec.InWindow (cap o base len : Nat) : Prop := ∃ i < len, o = (base + i) % cap

/-- The sixteen registers of the register map (spec/10_state.md R32; spec/44_status.md R202), by index. -/
def Sys2Proof.Spec.registers (s : State) : List Word :=
  [ BitVec.ofNat 64 (Spec.cap s), BitVec.ofNat 64 (Spec.cap s - 1), s.head, s.tail,
    s.head - s.tail, BitVec.ofNat 64 (Spec.cap s - (s.head - s.tail).toNat), s.flags, s.pPending,
    s.cPending, s.pTailSeen, s.cHeadSeen, s.fault,
    BitVec.ofNat 64 (Spec.cap s - (s.head - s.tail).toNat - s.pPending.toNat),
    BitVec.ofNat 64 ((s.head - s.tail).toNat - s.cPending.toNat),
    BitVec.ofNat 64 (Spec.start s .P), BitVec.ofNat 64 (Spec.start s .C) ]

/-- The values reset leaves (spec/70_reset_and_hazards.md R250), the computed registers among them. -/
def Sys2Proof.Spec.ResetValues (t : State) : Prop :=
  t.head = 0 ∧ t.tail = 0 ∧ t.wb = false ∧ t.rb = false ∧ t.pIntx = false ∧ t.cIntx = false ∧
    t.pPending = 0 ∧ t.cPending = 0 ∧ t.pTailSeen = 0 ∧ t.cHeadSeen = 0 ∧ t.fault = 0 ∧
    (∀ o, t.ram.read? o = none) ∧
    t.flags = 0x1 ∧ t.occ = 0 ∧ t.free = t.capacity ∧ t.pAvail t.tail = t.capacity ∧ t.cAvail t.head = 0 ∧
    t.start .P = 0 ∧ t.start .C = 0

/-- Commands run one after the other by `exec`; `none` if one stops. -/
def Sys2Proof.Spec.runAll : List Instr → State → Option State
  | [], s => some s
  | i :: is, s =>
    match exec i s with
    | .next t => Spec.runAll is t
    | .fault _ => none
    | .refused _ => none

/-- The `SIDE` bit of a side (spec/30_encoding.md R71). -/
def Sys2Proof.Spec.sideBit : Side → Nat
  | .P => 0
  | .C => 1

/-- The words R81 calls malformed, read off the word's number by division: `RES1` or `RES0` non-zero, `SIDE` not the
port, `OP` reserved, `REG` or `AP` where they may not stand, and the two forms one side lacks. -/
abbrev Sys2Proof.Spec.ReservedWord (port : Side) (w : Nat) : Prop :=
  w / 65536 ≠ 0 ∨ w / 32 % 4 ≠ 0 ∨ w / 128 % 2 ≠ Spec.sideBit port ∨ 0xB ≤ w % 16 ∨
    (w / 256 % 256 ≠ 0 ∧ w % 16 ≠ 7) ∨ (w / 16 % 2 = 1 ∧ w % 16 ≠ 2 ∧ w % 16 ≠ 5) ∨
    (port = .C ∧ w % 16 = 8) ∨ (port = .P ∧ w % 16 = 9)

/-- A run: each state is a step from the one before, after which the agents may have issued any further commands. -/
abbrev Sys2Proof.Spec.IsRun (run : Nat → State) : Prop :=
  ∀ k, ∃ (t : State) (ps cs : List Command), step (run k) = .next t ∧
    run (k + 1) = { t with pQueue := t.pQueue ++ ps, cQueue := t.cQueue ++ cs }

/-! ### Encoding -/

/-- Every well-formed command decodes from its encoding, on its own port, with every operand as it was
(spec/30_encoding.md R77, R80, R85). -/
def Obligations.DecodeOfEncodeIsTheCommand : Prop :=
  ∀ i : Instr, i.wellFormed = true → decode i.side (encode i) = .instr i

/-- The decoder and the opcode map agree in both directions, and no word matches two rows (R88). -/
def Obligations.DecodeFollowsTheOpcodeMap : Prop :=
  (∀ (port : Side) (c : Command) (i : Instr), decodeWord port c = .instr i →
      ∃ r ∈ opcodeMap, r.matches port c.word = true ∧ r.mnemonic = i.mnemonic) ∧
    (∀ (port : Side) (c : Command), ∀ r ∈ opcodeMap, r.matches port c.word = true →
      ∃ i, decodeWord port c = .instr i ∧ i.mnemonic = r.mnemonic) ∧
    (∀ (port : Side) (w : CmdWord), ∀ r ∈ opcodeMap, ∀ r' ∈ opcodeMap,
      r.matches port w = true → r'.matches port w = true → r = r') ∧
    opcodeMap.length = 24

/-- The words R81 lists, and a wrong payload length (R77), are malformed; a malformed command answers
`InvalidArgument`, changes no state and sets no `FAULT` bit. -/
def Obligations.ReservedWordsAnswerInvalidArgument : Prop :=
  (∀ (port : Side) (c : Command), Spec.ReservedWord port c.word.toNat → ∃ why, decode port c = .malformed why) ∧
    (∀ c : Command, c.word = 0x5 ∨ c.word = 0x15 ∨ c.word = 0x6 → c.payload.length ≠ c.opa.toNat →
      decode .P c = .malformed .payloadLength) ∧
    (∀ (s : State) (f : Fetched) (why : Malformed), s.resetIn = false → s.fetch = some f →
      decode f.port f.cmd = .malformed why → step s = .next (Spec.reject f.after f.port .invalidArgument 0))

/-- Words of spec/95_test_vectors.md 2.7 and R85, one or more per family, decode to the commands they stand for. -/
def Obligations.WordsOfTheSpecDecode : Prop :=
  decode .P ⟨0x00000000, 0, 0, []⟩ = .instr .pNop ∧
    decode .C ⟨0x00000080, 0, 0, []⟩ = .instr .cNop ∧
    decode .P ⟨0x00000001, 0, 0, []⟩ = .instr .pStart ∧
    decode .C ⟨0x00000083, 0, 0, []⟩ = .instr .cCommit ∧
    decode .P ⟨0x00000004, 0, 0, []⟩ = .instr .pCancel ∧
    decode .P ⟨0x00000006, 1, 0, [0x5A]⟩ = .instr (.pWriteAtomic 1 [0x5A]) ∧
    decode .C ⟨0x00000086, 3, 0, []⟩ = .instr (.cReadAtomic 3) ∧
    decode .C ⟨0x00000089, 7, 0, []⟩ = .instr (.cDread 7) ∧
    decode .P ⟨0x00000507, 0, 0, []⟩ = .instr (.pRdreg 0x05) ∧
    decode .C ⟨0x00000B87, 0, 0, []⟩ = .instr (.cRdreg 0x0B) ∧
    decode .C ⟨0x00000092, 4, 0, []⟩ = .instr (.cAccessPart 4) ∧
    decode .C ⟨0x00000095, 8, 0, []⟩ = .instr (.cReadPart 8) ∧
    decode .P ⟨0x0000000A, 3, 0, []⟩ = .instr (.pProbe 3) ∧
    decode .P ⟨0x00000008, 1, 0x42, []⟩ = .instr (.pDwrite 1 0x42) ∧
    decode .P ⟨0x00000005, 2, 0, [0xAA, 0xBB]⟩ = .instr (.pWrite 2 [0xAA, 0xBB]) ∧
    decode .P ⟨0x00000005, 2, 0, [0x01]⟩ = .malformed .payloadLength ∧
    decode .P ⟨0x00000080, 0, 0, []⟩ = .malformed .wrongSide ∧
    decode .C ⟨0x00000088, 0, 0, []⟩ = .malformed .writeByteOnConsumer ∧
    decode .P ⟨0x00000009, 0, 0, []⟩ = .malformed .readByteOnProducer ∧
    decode .P ⟨0x00000016, 0, 0, []⟩ = .malformed .strayPartial ∧
    decode .P ⟨0x00000102, 0, 0, []⟩ = .malformed .strayReg ∧
    decode .P ⟨0x0000000B, 0, 0, []⟩ = .malformed .reservedOp ∧
    decode .P ⟨0x00010001, 0, 0, []⟩ = .malformed .reservedBits

/-! ### The step, the apply order, reset -/

/-- A step takes the next command of the apply order off its port and runs the command it decodes to. -/
def Obligations.StepRunsTheDecodedCommand : Prop :=
  ∀ (s : State) (f : Fetched) (i : Instr), s.resetIn = false → s.fetch = some f → decode f.port f.cmd = .instr i →
    step s = exec i f.after

/-- Every applied command is the oldest of its port and gets exactly one response, on that port; the other port's
commands stay as they are (R60, R70). Taking it off its port changes nothing but that port's queue and the model's own
grants, draw index and plan of that side's peer reads (log entries 2, 4, 5, 8). -/
def Obligations.EachCommandGetsOneResponse : Prop :=
  (∀ s : State, s.resetIn = false → (s.pQueue ≠ [] ∨ s.cQueue ≠ []) →
    ∃ (port : Side) (c : Command) (rest : List Command) (t : State) (r : Response),
      s.queue port = c :: rest ∧ step s = .next t ∧ t.queue port = rest ∧
        t.queue port.other = s.queue port.other ∧ t.responses = s.responses ++ [(port, r)]) ∧
    ∀ (s : State) (f : Fetched), s.fetch = some f →
      ∃ (rest : List Command) (gs : List Side) (left : Nat) (goal : Word),
        s.queue f.port = f.cmd :: rest ∧
          f.after =
            match f.port with
            | .P => { s with pQueue := rest, grants := gs, tick := s.tick + 1, pLagLeft := left, pLagGoal := goal }
            | .C => { s with cQueue := rest, grants := gs, tick := s.tick + 1, cLagLeft := left, cLagGoal := goal }

/-- A loaded program is applied in the order of its lines (R87), each line once; beside the draw index, only the plan
of that port's peer reads moves on (log entry 8). -/
def Obligations.LoadedProgramRunsInLineOrder : Prop :=
  ∀ (s : State) (port : Side) (c : Command) (rest : Program),
    s.pQueue = [] → s.cQueue = [] → s.grants = [] →
    ∃ f, (s.load ((port, c) :: rest)).fetch = some f ∧ f.port = port ∧ f.cmd = c ∧
      ∃ (left : Nat) (goal : Word), f.after = { s.load rest with tick := s.tick + 1 }.setLag port left goal

/-- Weak fairness (spec/60_exceptions.md R241): a port that keeps a command waiting is served after finitely many
steps, whatever commands the agents go on to issue. -/
def Obligations.WaitingPortIsServed : Prop :=
  ∀ (port : Side) (run : Nat → State),
    (∀ k, (run k).resetIn = false) → (run 0).queue port ≠ [] → Spec.IsRun run →
    ∃ k f, (run k).fetch = some f ∧ f.port = port

/-- Reset leaves the values of R250, keeps the build constants and discards the issued commands with no response (R251).
The queues are the model's form of the issued commands, and the reset flag and the list of responses of the reset input
and of the answers (the model's choice, log entries 2, 3 and 10). The machine's reset state has those values for every choice of
the parameters. -/
def Obligations.ResetLeavesTheResetValues : Prop :=
  (∀ cfg : Config, Spec.ResetValues (State.resetWith cfg)) ∧
    ∀ s : State, s.resetIn = true →
      ∃ t, step s = .next t ∧ Spec.ResetValues t ∧ t.capacity = s.capacity ∧ t.mask = s.mask ∧
        t.pQueue = [] ∧ t.cQueue = [] ∧ (∀ e ∈ t.responses, e ∈ s.responses)

/-- The reset state meets the invariants of spec/10_state.md R37, for every choice of the parameters. -/
def Obligations.ResetStateMeetsTheInvariants : Prop :=
  ∀ cfg : Config, (State.resetWith cfg).Inv ∧ (State.resetWith cfg).RamInv ∧ (State.resetWith cfg).FaultReservedClear

/-- No command and no step ends in a fault or a refusal (R244): there is no stuck state. -/
def Obligations.EveryStepHasANextState : Prop :=
  (∀ (i : Instr) (s : State), ∃ t, exec i s = .next t) ∧ ∀ s : State, ∃ t, step s = .next t

/-! ### Commands of both sides -/

/-- `P.NOP` and `C.NOP` answer `Ok(0)` and change nothing (R200, R201). -/
def Obligations.NopAnswersOkAndChangesNothing : Prop :=
  ∀ s : State,
    (∀ (a : Word) (b : Byte) (p : List Byte),
        decode .P ⟨0x00000000, a, b, p⟩ = .instr .pNop ∧ decode .C ⟨0x00000080, a, b, p⟩ = .instr .cNop) ∧
      exec .pNop s = .next (Spec.answer s .P (Spec.response .ok 0 [] 0 [])) ∧
      exec .cNop s = .next (Spec.answer s .C (Spec.response .ok 0 [] 0 []))

/-- `RDREG` on either port returns the register of the map, the same value on both, and changes nothing; a reserved
index answers `InvalidArgument` with no `FAULT` bit (R202, R203). The values are stated in states that meet the
invariants, where no difference of the map wraps. -/
def Obligations.RegisterReadReturnsTheRegister : Prop :=
  ∀ (s : State) (reg : BitVec 8),
    (∀ (a : Word) (b : Byte) (p : List Byte),
        decode .P ⟨0x00000007 ||| reg.setWidth 32 <<< 8, a, b, p⟩ = .instr (.pRdreg reg) ∧
          decode .C ⟨0x00000087 ||| reg.setWidth 32 <<< 8, a, b, p⟩ = .instr (.cRdreg reg)) ∧
      (reg.toNat < 0x10 →
        ∃ v, exec (.pRdreg reg) s = .next (Spec.answer s .P (Spec.response .ok 0 [] v [])) ∧
          exec (.cRdreg reg) s = .next (Spec.answer s .C (Spec.response .ok 0 [] v [])) ∧
          (s.Inv → (Spec.registers s)[reg.toNat]? = some v)) ∧
      (0x10 ≤ reg.toNat →
        exec (.pRdreg reg) s = .next (Spec.reject s .P .invalidArgument 0) ∧
          exec (.cRdreg reg) s = .next (Spec.reject s .C .invalidArgument 0))

/-- The fields of `FLAGS` (spec/10_state.md R33). -/
def Obligations.FlagsRegisterFields : Prop :=
  ∀ s : State,
    (s.flags.getLsbD 0 = true ↔ s.head = s.tail) ∧
      (s.flags.getLsbD 1 = true ↔ (s.head - s.tail).toNat = Spec.cap s) ∧
      (s.flags.getLsbD 2 = true ↔ 0 < (s.head - s.tail).toNat) ∧
      s.flags.getLsbD 3 = s.wb ∧ s.flags.getLsbD 4 = s.rb ∧ s.flags.getLsbD 5 = s.pIntx ∧
      s.flags.getLsbD 6 = s.cIntx ∧ (s.flags.getLsbD 7 = true ↔ s.fault ≠ 0) ∧
      (∀ k, 8 ≤ k → s.flags.getLsbD k = false) ∧
      ¬ (s.flags.getLsbD 0 = true ∧ s.flags.getLsbD 1 = true)

/-- `PROBE` on either port answers the four window bits of the offset and changes nothing; an offset at or above
`CAPACITY` answers `InvalidArgument` with no `FAULT` bit (R204, R205). The free-space bit is stated where item 1 of R37
holds, so that `Free()` does not wrap. -/
def Obligations.ProbeReportsTheWindows : Prop :=
  ∀ (s : State) (o : Word),
    (∀ (b : Byte) (p : List Byte),
        decode .P ⟨0x0000000A, o, b, p⟩ = .instr (.pProbe o) ∧ decode .C ⟨0x0000008A, o, b, p⟩ = .instr (.cProbe o)) ∧
      (Spec.cap s ≤ o.toNat →
      exec (.pProbe o) s = .next (Spec.reject s .P .invalidArgument 0) ∧
        exec (.cProbe o) s = .next (Spec.reject s .C .invalidArgument 0)) ∧
      (o.toNat < Spec.cap s →
        ∃ v : Word,
          exec (.pProbe o) s = .next (Spec.answer s .P (Spec.response .ok 0 [] v [])) ∧
            exec (.cProbe o) s = .next (Spec.answer s .C (Spec.response .ok 0 [] v [])) ∧
            (v.getLsbD 0 = true ↔ Spec.InWindow (Spec.cap s) o.toNat s.tail.toNat (s.head - s.tail).toNat) ∧
            ((s.head - s.tail).toNat ≤ Spec.cap s →
              (v.getLsbD 1 = true ↔
                Spec.InWindow (Spec.cap s) o.toNat s.head.toNat (Spec.cap s - (s.head - s.tail).toNat))) ∧
            (v.getLsbD 2 = true ↔ Spec.InWindow (Spec.cap s) o.toNat s.head.toNat s.pPending.toNat) ∧
            (v.getLsbD 3 = true ↔ Spec.InWindow (Spec.cap s) o.toNat s.tail.toNat s.cPending.toNat) ∧
            (∀ k, 4 ≤ k → v.getLsbD k = false) ∧
            (s.Inv → (v.getLsbD 0 = !v.getLsbD 1) ∧ (v.getLsbD 2 = true → v.getLsbD 1 = true) ∧
              (v.getLsbD 3 = true → v.getLsbD 0 = true)))

/-! ### Transactions -/

/-- `P.START` (R141): `Busy` and the `P_BUSY` bit while open, `WouldBlock` while the guard is held, else the guard is
set and the transaction open with nothing pending; nothing else changes. -/
def Obligations.ProducerStartOpensTheTransaction : Prop :=
  ∀ s : State,
    (∀ (a : Word) (b : Byte) (p : List Byte), decode .P ⟨0x00000001, a, b, p⟩ = .instr .pStart) ∧
    (s.pIntx = true → exec .pStart s = .next (Spec.reject s .P .busy 0x1)) ∧
      (s.pIntx = false → s.wb = true → exec .pStart s = .next (Spec.reject s .P .wouldBlock 0)) ∧
      (s.pIntx = false → s.wb = false →
        exec .pStart s =
          .next (Spec.answer { s with wb := true, pIntx := true, pPending := 0 } .P (Spec.response .ok 0 [] 0 [])))

/-- `C.START` (R161). -/
def Obligations.ConsumerStartOpensTheTransaction : Prop :=
  ∀ s : State,
    (∀ (a : Word) (b : Byte) (p : List Byte), decode .C ⟨0x00000081, a, b, p⟩ = .instr .cStart) ∧
    (s.cIntx = true → exec .cStart s = .next (Spec.reject s .C .busy 0x100)) ∧
      (s.cIntx = false → s.rb = true → exec .cStart s = .next (Spec.reject s .C .wouldBlock 0)) ∧
      (s.cIntx = false → s.rb = false →
        exec .cStart s =
          .next (Spec.answer { s with rb := true, cIntx := true, cPending := 0 } .C (Spec.response .ok 0 [] 0 [])))

/-- `P.COMMIT` (R144): `HEAD` advances by the pending count, which is answered; the side is idle, its guard free,
nothing pending; nothing else changes. Outside a transaction: `NoTransaction` and the `P_NOTX` bit. -/
def Obligations.ProducerCommitPublishesThePending : Prop :=
  ∀ s : State,
    (∀ (a : Word) (b : Byte) (p : List Byte), decode .P ⟨0x00000003, a, b, p⟩ = .instr .pCommit) ∧
    (s.pIntx = false → exec .pCommit s = .next (Spec.reject s .P .noTransaction 0x2)) ∧
      (s.pIntx = true →
        exec .pCommit s =
          .next (Spec.answer { s with head := s.head + s.pPending, pPending := 0, wb := false, pIntx := false } .P
            (Spec.response .ok s.pPending.toNat [] 0 [])))

/-- `C.COMMIT` (R164): `TAIL` advances by the pending count. -/
def Obligations.ConsumerCommitFreesThePending : Prop :=
  ∀ s : State,
    (∀ (a : Word) (b : Byte) (p : List Byte), decode .C ⟨0x00000083, a, b, p⟩ = .instr .cCommit) ∧
    (s.cIntx = false → exec .cCommit s = .next (Spec.reject s .C .noTransaction 0x200)) ∧
      (s.cIntx = true →
        exec .cCommit s =
          .next (Spec.answer { s with tail := s.tail + s.cPending, cPending := 0, rb := false, cIntx := false } .C
            (Spec.response .ok s.cPending.toNat [] 0 [])))

/-- `P.CANCEL` (R145): the pending bytes are dropped and counted in the answer, no counter moves, the data RAM and
the snapshot stay. -/
def Obligations.ProducerCancelDiscardsThePending : Prop :=
  ∀ s : State,
    (∀ (a : Word) (b : Byte) (p : List Byte), decode .P ⟨0x00000004, a, b, p⟩ = .instr .pCancel) ∧
    (s.pIntx = false → exec .pCancel s = .next (Spec.reject s .P .noTransaction 0x2)) ∧
      (s.pIntx = true →
        exec .pCancel s =
          .next (Spec.answer { s with pPending := 0, wb := false, pIntx := false } .P
            (Spec.response .ok s.pPending.toNat [] 0 [])))

/-- `C.CANCEL` (R165). -/
def Obligations.ConsumerCancelGivesThePendingBack : Prop :=
  ∀ s : State,
    (∀ (a : Word) (b : Byte) (p : List Byte), decode .C ⟨0x00000084, a, b, p⟩ = .instr .cCancel) ∧
    (s.cIntx = false → exec .cCancel s = .next (Spec.reject s .C .noTransaction 0x200)) ∧
      (s.cIntx = true →
        exec .cCancel s =
          .next (Spec.answer { s with cPending := 0, rb := false, cIntx := false } .C
            (Spec.response .ok s.cPending.toNat [] 0 [])))

/-! ### Accesses -/

/-- `P.ACCESS` (R142, R134): all `size` bytes or `OutOfSpace`; the state after each outcome, whole. -/
def Obligations.ProducerAccessServesAllOrNothing : Prop :=
  ∀ (s : State) (size : Word),
    (∀ (b : Byte) (p : List Byte), decode .P ⟨0x00000002, size, b, p⟩ = .instr (.pAccess size)) ∧
      (s.pIntx = false → exec (.pAccess size) s = .next (Spec.reject s .P .noTransaction 0x2)) ∧
      (s.pIntx = true → ¬ Spec.arithOk s .P →
        exec (.pAccess size) s = .next (Spec.reject s .P .invalidArgument 0x8)) ∧
      (s.pIntx = true → Spec.arithOk s .P → Spec.avail s .P < size.toNat →
        exec (.pAccess size) s = .next (Spec.reject s .P .outOfSpace 0)) ∧
      (s.pIntx = true → Spec.arithOk s .P → size.toNat ≤ Spec.avail s .P →
        exec (.pAccess size) s =
          .next (Spec.answer (Spec.grown s .P size.toNat) .P
            (Spec.response .ok size.toNat (Spec.served s .P size.toNat) 0 [])))

/-- `P.ACCESS.PART` (R143): as many of the `size` bytes as are free, never `OutOfSpace`. -/
def Obligations.ProducerPartialAccessServesWhatIsFree : Prop :=
  ∀ (s : State) (size : Word),
    (∀ (b : Byte) (p : List Byte), decode .P ⟨0x00000012, size, b, p⟩ = .instr (.pAccessPart size)) ∧
      (s.pIntx = false → exec (.pAccessPart size) s = .next (Spec.reject s .P .noTransaction 0x2)) ∧
      (s.pIntx = true → ¬ Spec.arithOk s .P →
        exec (.pAccessPart size) s = .next (Spec.reject s .P .invalidArgument 0x8)) ∧
      (s.pIntx = true → Spec.arithOk s .P →
        ∀ n, n = min size.toNat (Spec.avail s .P) →
          exec (.pAccessPart size) s =
            .next (Spec.answer (Spec.grown s .P n) .P (Spec.response .ok n (Spec.served s .P n) 0 [])))

/-- `C.ACCESS` (R162). -/
def Obligations.ConsumerAccessServesAllOrNothing : Prop :=
  ∀ (s : State) (size : Word),
    (∀ (b : Byte) (p : List Byte), decode .C ⟨0x00000082, size, b, p⟩ = .instr (.cAccess size)) ∧
      (s.cIntx = false → exec (.cAccess size) s = .next (Spec.reject s .C .noTransaction 0x200)) ∧
      (s.cIntx = true → ¬ Spec.arithOk s .C →
        exec (.cAccess size) s = .next (Spec.reject s .C .invalidArgument 0x800)) ∧
      (s.cIntx = true → Spec.arithOk s .C → Spec.avail s .C < size.toNat →
        exec (.cAccess size) s = .next (Spec.reject s .C .outOfSpace 0)) ∧
      (s.cIntx = true → Spec.arithOk s .C → size.toNat ≤ Spec.avail s .C →
        exec (.cAccess size) s =
          .next (Spec.answer (Spec.grown s .C size.toNat) .C
            (Spec.response .ok size.toNat (Spec.served s .C size.toNat) 0 [])))

/-- `C.ACCESS.PART` (R163). -/
def Obligations.ConsumerPartialAccessServesWhatIsThere : Prop :=
  ∀ (s : State) (size : Word),
    (∀ (b : Byte) (p : List Byte), decode .C ⟨0x00000092, size, b, p⟩ = .instr (.cAccessPart size)) ∧
      (s.cIntx = false → exec (.cAccessPart size) s = .next (Spec.reject s .C .noTransaction 0x200)) ∧
      (s.cIntx = true → ¬ Spec.arithOk s .C →
        exec (.cAccessPart size) s = .next (Spec.reject s .C .invalidArgument 0x800)) ∧
      (s.cIntx = true → Spec.arithOk s .C →
        ∀ n, n = min size.toNat (Spec.avail s .C) →
          exec (.cAccessPart size) s =
            .next (Spec.answer (Spec.grown s .C n) .C (Spec.response .ok n (Spec.served s .C n) 0 [])))

/-! ### Copies within a transaction -/

/-- `P.WRITE` (R146): the payload stored in the window that starts where the next byte stood, every other byte of the
data RAM as before; on every failure nothing is stored. -/
def Obligations.ProducerWriteStoresThePayload : Prop :=
  ∀ (s : State) (size : Word) (payload : List Byte),
    (∀ b : Byte, decode .P ⟨0x00000005, size, b, payload⟩ =
        if payload.length = size.toNat then .instr (.pWrite size payload) else .malformed .payloadLength) ∧
      (payload.length = size.toNat → s.pIntx = false →
        exec (.pWrite size payload) s = .next (Spec.reject s .P .noTransaction 0x2)) ∧
      (payload.length = size.toNat → s.pIntx = true → ¬ Spec.arithOk s .P →
        exec (.pWrite size payload) s = .next (Spec.reject s .P .invalidArgument 0x8)) ∧
      (payload.length = size.toNat → s.pIntx = true → Spec.arithOk s .P → Spec.avail s .P < size.toNat →
        exec (.pWrite size payload) s = .next (Spec.reject s .P .outOfSpace 0)) ∧
      (payload.length = size.toNat → s.pIntx = true → Spec.arithOk s .P → size.toNat ≤ Spec.avail s .P →
        ∃ m, exec (.pWrite size payload) s =
            .next (Spec.answer { Spec.grown s .P size.toNat with ram := m } .P
              (Spec.response .ok size.toNat (Spec.served s .P size.toNat) 0 [])) ∧
          Spec.Stored s.ram m (Spec.cap s) (Spec.start s .P) payload)

/-- `P.WRITE.PART` (R147): the first bytes of the payload, as many as there is room for, are stored; the rest is
ignored. -/
def Obligations.ProducerPartialWriteStoresWhatFits : Prop :=
  ∀ (s : State) (size : Word) (payload : List Byte),
    (∀ b : Byte, decode .P ⟨0x00000015, size, b, payload⟩ =
        if payload.length = size.toNat then .instr (.pWritePart size payload) else .malformed .payloadLength) ∧
      (payload.length = size.toNat → s.pIntx = false →
        exec (.pWritePart size payload) s = .next (Spec.reject s .P .noTransaction 0x2)) ∧
      (payload.length = size.toNat → s.pIntx = true → ¬ Spec.arithOk s .P →
        exec (.pWritePart size payload) s = .next (Spec.reject s .P .invalidArgument 0x8)) ∧
      (payload.length = size.toNat → s.pIntx = true → Spec.arithOk s .P →
        ∀ n, n = min size.toNat (Spec.avail s .P) →
          ∃ m, exec (.pWritePart size payload) s =
              .next (Spec.answer { Spec.grown s .P n with ram := m } .P
                (Spec.response .ok n (Spec.served s .P n) 0 [])) ∧
            Spec.Stored s.ram m (Spec.cap s) (Spec.start s .P) (payload.take n))

/-- `C.READ` (R166): the bytes of the window that starts where the next byte stood, in stream order; the data RAM and
the counters stay. -/
def Obligations.ConsumerReadReturnsTheWindow : Prop :=
  ∀ (s : State) (size : Word),
    (∀ (b : Byte) (p : List Byte), decode .C ⟨0x00000085, size, b, p⟩ = .instr (.cRead size)) ∧
      (s.cIntx = false → exec (.cRead size) s = .next (Spec.reject s .C .noTransaction 0x200)) ∧
      (s.cIntx = true → ¬ Spec.arithOk s .C →
        exec (.cRead size) s = .next (Spec.reject s .C .invalidArgument 0x800)) ∧
      (s.cIntx = true → Spec.arithOk s .C → Spec.avail s .C < size.toNat →
        exec (.cRead size) s = .next (Spec.reject s .C .outOfSpace 0)) ∧
      (s.cIntx = true → Spec.arithOk s .C → size.toNat ≤ Spec.avail s .C →
        ∃ rb, exec (.cRead size) s =
            .next (Spec.answer (Spec.grown s .C size.toNat) .C
              (Spec.response .ok size.toNat (Spec.served s .C size.toNat) 0 rb)) ∧
          Spec.Loaded s.ram (Spec.cap s) (Spec.start s .C) size.toNat rb)

/-- `C.READ.PART` (R167). -/
def Obligations.ConsumerPartialReadReturnsWhatIsThere : Prop :=
  ∀ (s : State) (size : Word),
    (∀ (b : Byte) (p : List Byte), decode .C ⟨0x00000095, size, b, p⟩ = .instr (.cReadPart size)) ∧
      (s.cIntx = false → exec (.cReadPart size) s = .next (Spec.reject s .C .noTransaction 0x200)) ∧
      (s.cIntx = true → ¬ Spec.arithOk s .C →
        exec (.cReadPart size) s = .next (Spec.reject s .C .invalidArgument 0x800)) ∧
      (s.cIntx = true → Spec.arithOk s .C →
        ∀ n, n = min size.toNat (Spec.avail s .C) →
          ∃ rb, exec (.cReadPart size) s =
              .next (Spec.answer (Spec.grown s .C n) .C (Spec.response .ok n (Spec.served s .C n) 0 rb)) ∧
            Spec.Loaded s.ram (Spec.cap s) (Spec.start s .C) n rb)

/-- A write term whose payload is not `size` bytes long, which decoding never gives, is answered as decoding's rejection
is (R146 to R148 with R77; the model's choice, log entry 12). -/
def Obligations.WrongPayloadLengthIsRefused : Prop :=
  ∀ (s : State) (size : Word) (payload : List Byte), payload.length ≠ size.toNat →
    exec (.pWrite size payload) s = .next (Spec.reject s .P .invalidArgument 0) ∧
      exec (.pWritePart size payload) s = .next (Spec.reject s .P .invalidArgument 0) ∧
      exec (.pWriteAtomic size payload) s = .next (Spec.reject s .P .invalidArgument 0)

/-! ### Atomic copies and single bytes -/

/-- `P.WRITE.ATOMIC` (R148): all of the payload stored from `HEAD` on and published, or nothing changed but a `FAULT`
bit; the order of the checks is that of the clauses. The premise is item 3 of R37, which the rule's remark rests on. -/
def Obligations.ProducerAtomicWriteIsAllOrNothing : Prop :=
  ∀ (s : State) (size : Word) (payload : List Byte), (s.pIntx = false → s.pPending = 0) →
    (∀ b : Byte, decode .P ⟨0x00000006, size, b, payload⟩ =
        if payload.length = size.toNat then .instr (.pWriteAtomic size payload) else .malformed .payloadLength) ∧
      (payload.length = size.toNat →
        (s.pIntx = true → exec (.pWriteAtomic size payload) s = .next (Spec.reject s .P .busy 0x1)) ∧
          (s.pIntx = false → s.wb = true →
            exec (.pWriteAtomic size payload) s = .next (Spec.reject s .P .wouldBlock 0)) ∧
          (s.pIntx = false → s.wb = false → ¬ Spec.arithOk s .P →
            exec (.pWriteAtomic size payload) s = .next (Spec.reject s .P .invalidArgument 0x8)) ∧
          (s.pIntx = false → s.wb = false → Spec.arithOk s .P → Spec.avail s .P < size.toNat →
            exec (.pWriteAtomic size payload) s = .next (Spec.reject s .P .outOfSpace 0)) ∧
          (s.pIntx = false → s.wb = false → Spec.arithOk s .P → size = 0 →
            exec (.pWriteAtomic size payload) s = .next (Spec.answer s .P (Spec.response .ok 0 [] 0 []))) ∧
          (s.pIntx = false → s.wb = false → Spec.arithOk s .P → size ≠ 0 → size.toNat ≤ Spec.avail s .P →
            ∃ m, exec (.pWriteAtomic size payload) s =
                .next (Spec.answer { s with ram := m, head := s.head + size, pTailSeen := s.readPeer .P } .P
                  (Spec.response .ok size.toNat [] 0 [])) ∧
              Spec.Stored s.ram m (Spec.cap s) (s.head.toNat % Spec.cap s) payload))

/-- `C.READ.ATOMIC` (R168): `size` bytes from `TAIL` on returned and consumed, or nothing changed but a `FAULT`
bit. The premise is item 3 of R37, which the rule's remark rests on. -/
def Obligations.ConsumerAtomicReadIsAllOrNothing : Prop :=
  ∀ (s : State) (size : Word), (s.cIntx = false → s.cPending = 0) →
    (∀ (b : Byte) (p : List Byte), decode .C ⟨0x00000086, size, b, p⟩ = .instr (.cReadAtomic size)) ∧
      (s.cIntx = true → exec (.cReadAtomic size) s = .next (Spec.reject s .C .busy 0x100)) ∧
      (s.cIntx = false → s.rb = true → exec (.cReadAtomic size) s = .next (Spec.reject s .C .wouldBlock 0)) ∧
      (s.cIntx = false → s.rb = false → ¬ Spec.arithOk s .C →
        exec (.cReadAtomic size) s = .next (Spec.reject s .C .invalidArgument 0x800)) ∧
      (s.cIntx = false → s.rb = false → Spec.arithOk s .C → Spec.avail s .C < size.toNat →
        exec (.cReadAtomic size) s = .next (Spec.reject s .C .outOfSpace 0)) ∧
      (s.cIntx = false → s.rb = false → Spec.arithOk s .C → size = 0 →
        exec (.cReadAtomic size) s = .next (Spec.answer s .C (Spec.response .ok 0 [] 0 []))) ∧
      (s.cIntx = false → s.rb = false → Spec.arithOk s .C → size ≠ 0 → size.toNat ≤ Spec.avail s .C →
        ∃ rb, exec (.cReadAtomic size) s =
            .next (Spec.answer { s with tail := s.tail + size, cHeadSeen := s.readPeer .C } .C
              (Spec.response .ok size.toNat [] 0 rb)) ∧
          Spec.Loaded s.ram (Spec.cap s) (s.tail.toNat % Spec.cap s) size.toNat rb)

/-- `P.DWRITE` (R149): one byte stored inside the open window, every other byte as before; refused elsewhere. -/
def Obligations.ByteWriteStaysInTheWindow : Prop :=
  ∀ (s : State) (o : Word) (b : Byte),
    (∀ p : List Byte, decode .P ⟨0x00000008, o, b, p⟩ = .instr (.pDwrite o b)) ∧
      (Spec.cap s ≤ o.toNat → exec (.pDwrite o b) s = .next (Spec.reject s .P .invalidArgument 0)) ∧
      (o.toNat < Spec.cap s → s.pIntx = false →
        exec (.pDwrite o b) s = .next (Spec.reject s .P .noTransaction 0x2)) ∧
      (o.toNat < Spec.cap s → s.pIntx = true →
        ¬ Spec.InWindow (Spec.cap s) o.toNat s.head.toNat s.pPending.toNat →
        exec (.pDwrite o b) s = .next (Spec.reject s .P .invalidArgument 0x4)) ∧
      (o.toNat < Spec.cap s → s.pIntx = true →
        Spec.InWindow (Spec.cap s) o.toNat s.head.toNat s.pPending.toNat →
        ∃ m, exec (.pDwrite o b) s = .next (Spec.answer { s with ram := m } .P (Spec.response .ok 1 [] 0 [])) ∧
          Spec.Stored s.ram m (Spec.cap s) o.toNat [b])

/-- `C.DREAD` (R169): the byte at an offset inside the open window, zero-extended; nothing changes. -/
def Obligations.ByteReadStaysInTheWindow : Prop :=
  ∀ (s : State) (o : Word),
    (∀ (b : Byte) (p : List Byte), decode .C ⟨0x00000089, o, b, p⟩ = .instr (.cDread o)) ∧
      (Spec.cap s ≤ o.toNat → exec (.cDread o) s = .next (Spec.reject s .C .invalidArgument 0)) ∧
      (o.toNat < Spec.cap s → s.cIntx = false →
        exec (.cDread o) s = .next (Spec.reject s .C .noTransaction 0x200)) ∧
      (o.toNat < Spec.cap s → s.cIntx = true →
        ¬ Spec.InWindow (Spec.cap s) o.toNat s.tail.toNat s.cPending.toNat →
        exec (.cDread o) s = .next (Spec.reject s .C .invalidArgument 0x400)) ∧
      (o.toNat < Spec.cap s → s.cIntx = true →
        Spec.InWindow (Spec.cap s) o.toNat s.tail.toNat s.cPending.toNat →
        ∃ v : Byte,
          exec (.cDread o) s =
              .next (Spec.answer s .C (Spec.response .ok 1 [] (BitVec.ofNat 64 v.toNat) [])) ∧
            ∀ b, s.ram.read? o.toNat = some b → v = b)

/-! ### The datapath -/

/-- `Geometry` (R125, R126): the segments of the window, two exactly when it runs over the physical end. -/
def Obligations.GeometryIsTheWindow : Prop :=
  ∀ (s : State) (start n : Word), start.toNat < Spec.cap s → 1 ≤ n.toNat → n.toNat ≤ Spec.cap s →
    (s.geometry start n).map (fun g => (g.off.toNat, g.len.toNat)) =
      Spec.segments (Spec.cap s) start.toNat n.toNat

/-- R126 items 1, 3 and 4, R127: segment A and then segment B list the window's bytes in stream order, and no offset
twice. -/
def Obligations.SegmentsListTheWindow : Prop :=
  ∀ (s : State) (start n : Word), start.toNat < Spec.cap s → 1 ≤ n.toNat → n.toNat ≤ Spec.cap s →
    (s.geometry start n).flatMap (fun g => (List.range g.len.toNat).map (g.off.toNat + ·)) =
        (List.range n.toNat).map (fun i => (s.segAddr start i).toNat) ∧
      ((List.range n.toNat).map fun i => (s.segAddr start i).toNat).Nodup ∧
      ∀ g ∈ s.geometry start n, 1 ≤ g.len.toNat ∧ g.off.toNat + g.len.toNat ≤ Spec.cap s

/-- `InWindow(o, b, len)` (R131) says that `o` is the physical offset of one of the `len` logical bytes from `b`: false
everywhere for length 0, true everywhere for length `CAPACITY`. -/
def Obligations.WindowPredicateNamesTheWindow : Prop :=
  ∀ (s : State) (o base len : Word), o.toNat < Spec.cap s → len.toNat ≤ Spec.cap s →
    (s.inWindow o base len = true ↔ Spec.InWindow (Spec.cap s) o.toNat base.toNat len.toNat) ∧
      (len = 0 → s.inWindow o base len = false) ∧ (len.toNat = Spec.cap s → s.inWindow o base len = true)

/-- `ReadPeer` (spec/40_header.md R104): the register under `CURRENT`; under `LAGGED` a value from the snapshot to the
register, and every such value is one some draw gives. -/
def Obligations.PeerReadWithinTheBound : Prop :=
  (∀ (s : State) (sd : Side),
      (s.cfg.peerView = .current → s.readPeer sd = s.peer sd) ∧
        (s.cfg.peerView = .lagged → (s.readPeer sd - s.seen sd).toNat ≤ (s.peer sd - s.seen sd).toNat)) ∧
    ∀ seen peer x : Word, (x - seen).toNat ≤ (peer - seen).toNat → ∃ choice, laggedDraw seen peer choice = x

/-- The properties of the valid-data detector (R132): each offset is valid or free and not both, the producer's window
is free space, the consumer's is committed data, and the two windows are disjoint (R64). -/
def Obligations.ValidAndFreePartitionTheRam : Prop :=
  ∀ (s : State) (o : Word), s.Inv → o.toNat < Spec.cap s →
    s.freeAt o = !s.validAt o ∧ (s.pWin o = true → s.freeAt o = true) ∧ (s.cWin o = true → s.validAt o = true) ∧
      ¬ (s.pWin o = true ∧ s.cWin o = true)

/-- The next command to be applied is one of side `sd` that reads the peer's counter, and it observes `obs`. -/
def Sys2Proof.Spec.Observes (s : State) (sd : Side) (obs : Word) : Prop :=
  ∃ f i, s.fetch = some f ∧ f.port = sd ∧ decode f.port f.cmd = .instr i ∧ f.after.readsPeer i = true ∧
    f.after.readPeer sd = obs

/-- How many bytes the peer's counter of side `sd` has gone forward over `n` steps of a run from step `k`. -/
def Sys2Proof.Spec.advanced (run : Nat → State) (sd : Side) (k : Nat) : Nat → Nat
  | 0 => 0
  | n + 1 => Spec.advanced run sd k n + ((run (k + n + 1)).peer sd - (run (k + n)).peer sd).toNat

/-- Eventual visibility (spec/70_reset_and_hazards.md R265): a side that reads its peer's counter again and again comes
to every value the counter has, under either `PEER_VIEW`: after any step `k` some read lags behind the counter by no more
bytes than the counter has gone forward since. -/
def Obligations.EveryPeerValueIsComeTo : Prop :=
  ∀ (sd : Side) (run : Nat → State),
    (run 0).Inv → (∀ k, (run k).resetIn = false) → Spec.IsRun run →
    (∀ k, ∃ m, k ≤ m ∧ ∃ obs, Spec.Observes (run m) sd obs) →
    ∀ k, ∃ n obs, Spec.Observes (run (k + n)) sd obs ∧
      ((run (k + n)).peer sd - obs).toNat ≤ Spec.advanced run sd k n

/-! ### Invariants -/

/-- Every step keeps the invariants 1 to 5 of spec/10_state.md R37, under either `PEER_VIEW`. -/
def Obligations.StepKeepsTheInvariants : Prop :=
  ∀ s t : State, s.Inv → step s = .next t → t.Inv

/-- Every step keeps the data RAM canonical and inside its offsets, the reserved bits of `FAULT` clear, and the build
parameters as they are. -/
def Obligations.StepKeepsRamFaultAndParameters : Prop :=
  ∀ s t : State, s.RamInv → s.FaultReservedClear → step s = .next t →
    t.RamInv ∧ t.FaultReservedClear ∧ t.cfg = s.cfg

/-- Every action of the environment that is no breach keeps the invariants. -/
def Obligations.EnvironmentKeepsTheInvariants : Prop :=
  ∀ (a : EnvAction) (s t : State), s.Inv → s.RamInv → env a s = .next t → t.Inv ∧ t.RamInv

/-- The arithmetic assertion never fires and `WouldBlock` is never answered in a state that meets the invariants
(R135, spec/60_exceptions.md R223). -/
def Obligations.UnreachableStatusesAreNotAnswered : Prop :=
  ∀ s : State, s.Inv →
    (∀ sd, s.arithBad sd (s.readPeer sd) = false) ∧
      ∀ (i : Instr) (t : State) (r : Response), exec i s = .next t → t.responses = s.responses ++ [(i.side, r)] →
        r.status ≠ .wouldBlock

/-! ### Rules over all commands -/

/-- A command that answers a status other than `Ok` changes no state but at most one `FAULT` bit of its own side, and
answers nothing but its status (R220, R223; spec/40_header.md R109). -/
def Obligations.FailingCommandChangesOnlyAFaultBit : Prop :=
  ∀ (i : Instr) (s t : State), exec i s = .next t →
    ∃ r, t.responses = s.responses ++ [(i.side, r)] ∧
      (r.status ≠ .ok →
        r = Spec.response r.status 0 [] 0 [] ∧
          ∃ bits : Word, t = { s with fault := s.fault ||| bits, responses := t.responses } ∧
            (bits = 0 ∨ ∃ k, bits = BitVec.twoPow 64 k ∧ match i.side with | .P => k < 4 | .C => 8 ≤ k ∧ k < 12))

/-- A command of one side leaves every register of the other side as it was, and no consumer command writes the data
RAM (spec/40_header.md R100, spec/20_memory.md R69). -/
def Obligations.SidesAreIsolated : Prop :=
  ∀ (i : Instr) (s t : State), exec i s = .next t →
    (i.side = .P → t.tail = s.tail ∧ t.rb = s.rb ∧ t.cIntx = s.cIntx ∧ t.cPending = s.cPending ∧
      t.cHeadSeen = s.cHeadSeen) ∧
      (i.side = .C → t.head = s.head ∧ t.wb = s.wb ∧ t.pIntx = s.pIntx ∧ t.pPending = s.pPending ∧
        t.pTailSeen = s.pTailSeen ∧ t.ram = s.ram)

/-- Only commits and atomic copies move a counter, and only those and the transaction commands open or close a
transaction (spec/40_header.md R108; spec/42_producer.md R140, R150; spec/43_consumer.md R160). -/
def Obligations.CountersAndTransactionsMoveByTheirCommands : Prop :=
  ∀ (i : Instr) (s t : State), exec i s = .next t →
    (t.head ≠ s.head → i = .pCommit ∨ ∃ size payload, i = .pWriteAtomic size payload) ∧
      (t.tail ≠ s.tail → i = .cCommit ∨ ∃ size, i = .cReadAtomic size) ∧
      (s.pIntx = false → t.pIntx = true → i = .pStart) ∧
      (s.pIntx = true → t.pIntx = false → i = .pCommit ∨ i = .pCancel) ∧
      (s.cIntx = false → t.cIntx = true → i = .cStart) ∧
      (s.cIntx = true → t.cIntx = false → i = .cCommit ∨ i = .cCancel)

/-- A `FAULT` bit stays set until reset, and a state with one set is never an accepted final state (R222, R243). -/
def Obligations.FaultBitsAreSticky : Prop :=
  ∀ s t : State, s.resetIn = false → step s = .next t →
    t.fault &&& s.fault = s.fault ∧ (s.fault ≠ 0 → s.accepted = false ∧ t.accepted = false)

/-! ### The byte stream -/

/-- The block is a queue of bytes (spec/20_memory.md R61): only a commit and an atomic write append to the committed
stream, what they append is the open window or the payload; only a consumer commit and an atomic read remove, from the
front; nothing else changes it. -/
def Obligations.CommittedStreamIsAQueue : Prop :=
  ∀ (i : Instr) (s t : State) (r : Response), s.Inv → i.wellFormed = true → exec i s = .next t →
    t.responses = s.responses ++ [(i.side, r)] →
    match i with
    | .pCommit => t.committed = s.committed ++ s.pendingBytes
    | .pWriteAtomic _ payload => t.committed = s.committed ++ (if r.status = .ok then payload.map some else [])
    | .cCommit => t.committed = s.committed.drop s.cPending.toNat
    | .cReadAtomic _ => t.committed = s.committed.drop r.n.toNat
    | .pNop | .cNop | .pStart | .pAccess _ | .pAccessPart _ | .pCancel | .pWrite _ _ | .pWritePart _ _
    | .pDwrite _ _ | .cStart | .cAccess _ | .cAccessPart _ | .cCancel | .cRead _ | .cReadPart _ | .cDread _
    | .pRdreg _ | .cRdreg _ | .pProbe _ | .cProbe _ => t.committed = s.committed

/-- Every byte a read returns is the committed byte at its place in the stream, wherever that byte was written
(R61, spec/43_consumer.md R166, R168). -/
def Obligations.ReadsReturnTheCommittedBytes : Prop :=
  ∀ (s t : State) (size : Word) (r : Response), s.Inv →
    (exec (.cRead size) s = .next t ∨ exec (.cReadPart size) s = .next t →
      t.responses = s.responses ++ [(.C, r)] →
      r.rbytes.length = r.n.toNat ∧
        ∀ (k : Nat) (b : Byte), k < r.n.toNat → s.committed[s.cPending.toNat + k]? = some (some b) →
          r.rbytes[k]? = some b) ∧
      (exec (.cReadAtomic size) s = .next t → t.responses = s.responses ++ [(.C, r)] →
        r.rbytes.length = r.n.toNat ∧
          ∀ (k : Nat) (b : Byte), k < r.n.toNat → s.committed[k]? = some (some b) → r.rbytes[k]? = some b)

/-- What the consumer's protocol commands answer does not depend on anything uncommitted: two states that agree on
the counters, the consumer's own state, the committed stream and the draws give the same answer, and stay so agreed
(spec/70_reset_and_hazards.md R263: cancelled bytes are never read). `RDREG` and `PROBE` observe both sides and are left
out. -/
def Obligations.ConsumerSeesOnlyCommittedData : Prop :=
  ∀ (i : Instr) (s s' t t' : State), s.Inv → s'.Inv → i.side = .C → (∀ reg, i ≠ .cRdreg reg) →
    (∀ o, i ≠ .cProbe o) →
    s.cfg = s'.cfg → s.head = s'.head → s.tail = s'.tail → s.rb = s'.rb → s.cIntx = s'.cIntx →
    s.cPending = s'.cPending → s.cHeadSeen = s'.cHeadSeen → s.tick = s'.tick → s.cLagLeft = s'.cLagLeft →
    s.cLagGoal = s'.cLagGoal → s.committed = s'.committed →
    exec i s = .next t → exec i s' = .next t' →
    (∃ r, t.responses = s.responses ++ [(.C, r)] ∧ t'.responses = s'.responses ++ [(.C, r)]) ∧
      t.cfg = t'.cfg ∧ t.head = t'.head ∧ t.tail = t'.tail ∧ t.rb = t'.rb ∧ t.cIntx = t'.cIntx ∧
      t.cPending = t'.cPending ∧ t.cHeadSeen = t'.cHeadSeen ∧ t.tick = t'.tick ∧ t.cLagLeft = t'.cLagLeft ∧
      t.cLagGoal = t'.cLagGoal ∧ t.committed = t'.committed

/-- Round trip (spec/95_test_vectors.md V6): bytes written atomically into an empty block, at most `CAPACITY` of them,
are what an atomic read of as many returns, wherever in the RAM they wrap. -/
def Obligations.AtomicRoundTripReturnsTheBytes : Prop :=
  ∀ (s : State) (payload : List Byte), s.Inv → s.cfg.peerView = .current → s.head = s.tail →
    s.pIntx = false → s.cIntx = false → payload ≠ [] → payload.length ≤ Spec.cap s →
    ∃ t u, exec (.pWriteAtomic (BitVec.ofNat 64 payload.length) payload) s = .next t ∧
      exec (.cReadAtomic (BitVec.ofNat 64 payload.length)) t = .next u ∧
      u.responses = s.responses ++ [(.P, Spec.response .ok payload.length [] 0 []),
        (.C, Spec.response .ok payload.length [] 0 payload)] ∧
      u.head = u.tail

/-- A cancel after any accesses leaves the counters, the data RAM, the available space, the committed stream and the
consumer's registers as before the start, and the producer idle (spec/95_test_vectors.md V7, spec/42_producer.md R145).
`P_TAILSEEN` may differ, as R145 says, and `FAULT` where the arithmetic assertion fails. -/
def Obligations.CancelUndoesAnyAccesses : Prop :=
  ∀ (s : State) (requests : List (Bool × Word)), s.pIntx = false → s.wb = false → s.pPending = 0 →
    ∃ t, Spec.runAll (.pStart :: (requests.map fun q => if q.1 then .pAccessPart q.2 else .pAccess q.2) ++ [.pCancel])
        s = some t ∧
      t.head = s.head ∧ t.tail = s.tail ∧ t.ram = s.ram ∧ t.pIntx = false ∧ t.wb = false ∧
      t.pPending = 0 ∧ t.pAvail t.tail = s.pAvail s.tail ∧ t.committed = s.committed ∧ t.cfg = s.cfg ∧ t.rb = s.rb ∧
      t.cIntx = s.cIntx ∧ t.cPending = s.cPending ∧ t.cHeadSeen = s.cHeadSeen ∧
      (t.fault = s.fault ∨ t.fault = s.fault ||| 0x8)

/-- The agent of a port has issued the `COMMIT` that ends its transaction: its oldest waiting command that decodes to a
`COMMIT` or a `CANCEL` of its side is the former. -/
def Sys2Proof.Spec.CommitIssued (s : State) (port : Side) : Prop :=
  ∃ (before after : List Command) (c : Command), s.queue port = before ++ c :: after ∧
    (decode port c = .instr .pCommit ∨ decode port c = .instr .cCommit) ∧
    ∀ c' ∈ before, ∀ i ∈ [Instr.pCommit, .pCancel, .cCommit, .cCancel], decode port c' ≠ .instr i

/-- An own-path write in the producer's window stores one byte and leaves the committed stream as it was; one outside
the region, outside the window, or after the producer has issued the commit of its window stops
(spec/70_reset_and_hazards.md R261 duties 1 and 2; spec/93_implementation_defined.md row 17; log entry 13). -/
def Obligations.OwnPathWriteLeavesTheStream : Prop :=
  ∀ (s : State) (o : Nat) (b : Byte), s.Inv →
    (Spec.cap s ≤ o → env (.ownWrite (s.cfg.dataBase + o) b) s = .fault .ownPathOutsideRegion) ∧
      (o < Spec.cap s → ¬ (s.pIntx = true ∧ Spec.InWindow (Spec.cap s) o s.head.toNat s.pPending.toNat) →
        env (.ownWrite (s.cfg.dataBase + o) b) s = .fault .ownPathOutsideWindow) ∧
      (o < Spec.cap s → s.pIntx = true → Spec.InWindow (Spec.cap s) o s.head.toNat s.pPending.toNat →
        Spec.CommitIssued s .P → env (.ownWrite (s.cfg.dataBase + o) b) s = .fault .ownPathAfterCommit) ∧
      (o < Spec.cap s → s.pIntx = true → Spec.InWindow (Spec.cap s) o s.head.toNat s.pPending.toNat →
        ¬ Spec.CommitIssued s .P →
        ∃ m, env (.ownWrite (s.cfg.dataBase + o) b) s = .next { s with ram := m } ∧
          Spec.Stored s.ram m (Spec.cap s) o [b] ∧ ({ s with ram := m } : State).committed = s.committed)

/-- An own-path read in the consumer's window returns the byte of the data RAM, any value where none was written, and
changes nothing but the model's record of it and the draw index; one outside the region, outside the window, or after
the consumer has issued its commit stops (spec/70_reset_and_hazards.md R261 duties 1 and 3; log entry 13). -/
def Obligations.OwnPathReadReturnsTheByte : Prop :=
  ∀ (s : State) (o : Nat),
    (Spec.cap s ≤ o → env (.ownRead (s.cfg.dataBase + o)) s = .fault .ownPathOutsideRegion) ∧
      (o < Spec.cap s → ¬ (s.cIntx = true ∧ Spec.InWindow (Spec.cap s) o s.tail.toNat s.cPending.toNat) →
        env (.ownRead (s.cfg.dataBase + o)) s = .fault .ownPathOutsideWindow) ∧
      (o < Spec.cap s → s.cIntx = true → Spec.InWindow (Spec.cap s) o s.tail.toNat s.cPending.toNat →
        Spec.CommitIssued s .C → env (.ownRead (s.cfg.dataBase + o)) s = .fault .ownPathAfterCommit) ∧
      (o < Spec.cap s → s.cIntx = true → Spec.InWindow (Spec.cap s) o s.tail.toNat s.cPending.toNat →
        ¬ Spec.CommitIssued s .C →
        ∃ v : Byte, env (.ownRead (s.cfg.dataBase + o)) s =
            .next { s with tick := s.tick + 1, ownReads := s.ownReads ++ [(s.cfg.dataBase + o, v)] } ∧
          ∀ b, s.ram.read? o = some b → v = b)
end

