-- ==== Sys2Proof/Laws/Memory.lean ====
section
/-! SUPPORT. The data RAM: a read after a write, other offsets, and the canonical form (spec/20_memory.md R50). -/

namespace Sys2Proof.Machine

/-- A byte just written reads as the value written (R50). -/
@[simp] theorem Memory.read?_write_same (m : Memory) (o : Nat) (v : Byte) : (Memory.write m o v).read? o = some v := by
  induction m with
  | nil => simp [Memory.write, Memory.read?]
  | cons cell m ih =>
    obtain ⟨a, b⟩ := cell
    simp only [Memory.write]
    split
    · simp [Memory.read?]
    · split
      · simp [Memory.read?]
      · rename_i h₁ h₂
        simp [Memory.read?, Ne.symm h₂, ih]

/-- In a memory in canonical form, an offset below the first listed one is unwritten. -/
theorem Memory.read?_below (m : Memory) (a o : Nat) (b : Byte) (h : Memory.wf ((a, b) :: m) = true) (ho : o < a) :
    Memory.read? m o = none := by
  induction m generalizing a b with
  | nil => rfl
  | cons cell m ih =>
    obtain ⟨a', b'⟩ := cell
    simp only [Memory.wf, Bool.and_eq_true, decide_eq_true_eq] at h
    have hne : a' ≠ o := by omega
    simp [Memory.read?, hne, ih a' b' h.2 (by omega)]

/-- A write leaves every other offset as it was. -/
theorem Memory.read?_write_other (m : Memory) (o o' : Nat) (v : Byte) (h : o' ≠ o) :
    (Memory.write m o v).read? o' = Memory.read? m o' := by
  induction m with
  | nil => simp [Memory.write, Memory.read?, Ne.symm h]
  | cons cell m ih =>
    obtain ⟨a, b⟩ := cell
    simp only [Memory.write]
    split
    · simp [Memory.read?, Ne.symm h]
    · split
      · rename_i h₁ h₂
        subst h₂
        simp [Memory.read?, Ne.symm h]
      · simp [Memory.read?, ih]

/-- A write keeps the first listed offset above any bound it was above. -/
theorem Memory.wf_write_cons (m : Memory) (a o : Nat) (b v : Byte) (h : Memory.wf ((a, b) :: m) = true) (ho : a < o) :
    Memory.wf ((a, b) :: Memory.write m o v) = true := by
  induction m generalizing a b with
  | nil => simp [Memory.write, Memory.wf, ho]
  | cons cell m ih =>
    obtain ⟨a', b'⟩ := cell
    simp only [Memory.wf, Bool.and_eq_true, decide_eq_true_eq] at h
    simp only [Memory.write]
    split
    · simp [Memory.wf, h.2, *]
    · split
      · rename_i h₁ h₂
        subst h₂
        cases m with
        | nil => simp [Memory.wf, ho]
        | cons c m => simpa [Memory.wf, ho] using h.2
      · rename_i h₁ h₂
        simp [Memory.wf, h.1, ih a' b' h.2 (by omega)]

/-- A write keeps the canonical form. -/
theorem Memory.wf_write (m : Memory) (o : Nat) (v : Byte) (h : Memory.wf m = true) :
    Memory.wf (Memory.write m o v) = true := by
  cases m with
  | nil => rfl
  | cons cell m =>
    obtain ⟨a, b⟩ := cell
    simp only [Memory.write]
    split
    · simp [Memory.wf, *]
    · split
      · rename_i h₁ h₂
        subst h₂
        cases m with
        | nil => rfl
        | cons c m => simpa [Memory.wf] using h
      · exact Memory.wf_write_cons m a o b v h (by omega)

/-- A write to an existing offset lists existing offsets only. -/
theorem Memory.within_write (m : Memory) (cap o : Nat) (v : Byte) (h : Memory.within m cap = true) (ho : o < cap) :
    Memory.within (Memory.write m o v) cap = true := by
  induction m with
  | nil => simp [Memory.write, Memory.within, ho]
  | cons cell m ih =>
    obtain ⟨a, b⟩ := cell
    simp only [Memory.within, List.all_cons, Bool.and_eq_true, decide_eq_true_eq] at h ih ⊢
    simp only [Memory.write]
    split
    · simp [ho, h.1, h.2]
    · split
      · simp [ho, h.2]
      · simp [h.1, ih h.2]

/-- The copy of a write command keeps the canonical form. -/
theorem State.wf_writeWindow (s : State) (start : Word) (bs : List Byte) (i : Nat) (m : Memory) (h : m.wf = true) :
    (s.writeWindow start i bs m).wf = true := by
  induction bs generalizing i m with
  | nil => exact h
  | cons b bs ih => exact ih _ _ (Memory.wf_write m _ b h)

/-- Two memories in canonical form that read the same everywhere are the same list. -/
theorem Memory.eq_of_read?_eq (m m' : Memory) (h : Memory.wf m = true) (h' : Memory.wf m' = true)
    (hr : ∀ o, Memory.read? m o = Memory.read? m' o) : m = m' := by
  have tail_wf : ∀ (c : Host.Cell) (l : Memory), Memory.wf (c :: l) = true → Memory.wf l = true := by
    intro c l hl
    cases l with
    | nil => rfl
    | cons d l => simp only [Memory.wf, Bool.and_eq_true] at hl; exact hl.2
  have head_none : ∀ (a : Nat) (b : Byte) (l : Memory), Memory.wf ((a, b) :: l) = true → Memory.read? l a = none := by
    intro a b l hl
    cases l with
    | nil => rfl
    | cons d l =>
      obtain ⟨a', b'⟩ := d
      simp only [Memory.wf, Bool.and_eq_true, decide_eq_true_eq] at hl
      have hne : a' ≠ a := by omega
      simp [Memory.read?, hne, Memory.read?_below l a' a b' hl.2 hl.1]
  induction m generalizing m' with
  | nil =>
    cases m' with
    | nil => rfl
    | cons c l => have := hr c.1; simp [Memory.read?] at this
  | cons c l ih =>
    obtain ⟨a, b⟩ := c
    cases m' with
    | nil => have := hr a; simp [Memory.read?] at this
    | cons d l' =>
      obtain ⟨a', b'⟩ := d
      have haa : a = a' := by
        rcases Nat.lt_trichotomy a a' with hlt | heq | hgt
        · have := hr a
          simp [Memory.read?, Nat.ne_of_gt hlt, Memory.read?_below l' a' a b' h' hlt] at this
        · exact heq
        · have := hr a'
          simp [Memory.read?, Nat.ne_of_gt hgt, Memory.read?_below l a a' b h hgt] at this
      subst haa
      have hb : b = b' := by have := hr a; simpa [Memory.read?] using this
      subst hb
      congr 1
      refine ih l' (tail_wf _ l h) (tail_wf _ l' h') fun o => ?_
      by_cases ho : a = o
      · subst ho; rw [head_none a b l h, head_none a b l' h']
      · have := hr o; simpa [Memory.read?, ho] using this

end Sys2Proof.Machine
end

