-- ==== Sys2Proof/Laws/State.lean ====
section
/-! SUPPORT. One lemma per field per state update, so that no proof unfolds a record update, and the build constants
through each update. -/

namespace Sys2Proof.Machine


/-! ### setOwn -/

@[simp] theorem State.setOwn_cfg (s : State) (sd : Side) (v : Word) : (s.setOwn sd v).cfg = s.cfg := by cases sd <;> rfl
@[simp] theorem State.setOwn_P_head (s : State) (v : Word) : (s.setOwn .P v).head = v := rfl
@[simp] theorem State.setOwn_C_head (s : State) (v : Word) : (s.setOwn .C v).head = s.head := rfl
@[simp] theorem State.setOwn_P_tail (s : State) (v : Word) : (s.setOwn .P v).tail = s.tail := rfl
@[simp] theorem State.setOwn_C_tail (s : State) (v : Word) : (s.setOwn .C v).tail = v := rfl
@[simp] theorem State.setOwn_wb (s : State) (sd : Side) (v : Word) : (s.setOwn sd v).wb = s.wb := by cases sd <;> rfl
@[simp] theorem State.setOwn_rb (s : State) (sd : Side) (v : Word) : (s.setOwn sd v).rb = s.rb := by cases sd <;> rfl
@[simp] theorem State.setOwn_pIntx (s : State) (sd : Side) (v : Word) : (s.setOwn sd v).pIntx = s.pIntx := by cases sd <;> rfl
@[simp] theorem State.setOwn_pPending (s : State) (sd : Side) (v : Word) : (s.setOwn sd v).pPending = s.pPending := by cases sd <;> rfl
@[simp] theorem State.setOwn_pTailSeen (s : State) (sd : Side) (v : Word) : (s.setOwn sd v).pTailSeen = s.pTailSeen := by cases sd <;> rfl
@[simp] theorem State.setOwn_cIntx (s : State) (sd : Side) (v : Word) : (s.setOwn sd v).cIntx = s.cIntx := by cases sd <;> rfl
@[simp] theorem State.setOwn_cPending (s : State) (sd : Side) (v : Word) : (s.setOwn sd v).cPending = s.cPending := by cases sd <;> rfl
@[simp] theorem State.setOwn_cHeadSeen (s : State) (sd : Side) (v : Word) : (s.setOwn sd v).cHeadSeen = s.cHeadSeen := by cases sd <;> rfl
@[simp] theorem State.setOwn_fault (s : State) (sd : Side) (v : Word) : (s.setOwn sd v).fault = s.fault := by cases sd <;> rfl
@[simp] theorem State.setOwn_ram (s : State) (sd : Side) (v : Word) : (s.setOwn sd v).ram = s.ram := by cases sd <;> rfl
@[simp] theorem State.setOwn_pQueue (s : State) (sd : Side) (v : Word) : (s.setOwn sd v).pQueue = s.pQueue := by cases sd <;> rfl
@[simp] theorem State.setOwn_cQueue (s : State) (sd : Side) (v : Word) : (s.setOwn sd v).cQueue = s.cQueue := by cases sd <;> rfl
@[simp] theorem State.setOwn_grants (s : State) (sd : Side) (v : Word) : (s.setOwn sd v).grants = s.grants := by cases sd <;> rfl
@[simp] theorem State.setOwn_resetIn (s : State) (sd : Side) (v : Word) : (s.setOwn sd v).resetIn = s.resetIn := by cases sd <;> rfl
@[simp] theorem State.setOwn_responses (s : State) (sd : Side) (v : Word) : (s.setOwn sd v).responses = s.responses := by cases sd <;> rfl
@[simp] theorem State.setOwn_tick (s : State) (sd : Side) (v : Word) : (s.setOwn sd v).tick = s.tick := by cases sd <;> rfl
@[simp] theorem State.setOwn_pLagLeft (s : State) (sd : Side) (v : Word) : (s.setOwn sd v).pLagLeft = s.pLagLeft := by cases sd <;> rfl
@[simp] theorem State.setOwn_pLagGoal (s : State) (sd : Side) (v : Word) : (s.setOwn sd v).pLagGoal = s.pLagGoal := by cases sd <;> rfl
@[simp] theorem State.setOwn_cLagLeft (s : State) (sd : Side) (v : Word) : (s.setOwn sd v).cLagLeft = s.cLagLeft := by cases sd <;> rfl
@[simp] theorem State.setOwn_cLagGoal (s : State) (sd : Side) (v : Word) : (s.setOwn sd v).cLagGoal = s.cLagGoal := by cases sd <;> rfl
@[simp] theorem State.setOwn_ownReads (s : State) (sd : Side) (v : Word) : (s.setOwn sd v).ownReads = s.ownReads := by cases sd <;> rfl
@[simp] theorem State.setOwn_capacity (s : State) (sd : Side) (v : Word) : (s.setOwn sd v).capacity = s.capacity := by cases sd <;> rfl
@[simp] theorem State.setOwn_mask (s : State) (sd : Side) (v : Word) : (s.setOwn sd v).mask = s.mask := by cases sd <;> rfl

/-! ### setInTx -/

@[simp] theorem State.setInTx_cfg (s : State) (sd : Side) (v : Bool) : (s.setInTx sd v).cfg = s.cfg := by cases sd <;> rfl
@[simp] theorem State.setInTx_head (s : State) (sd : Side) (v : Bool) : (s.setInTx sd v).head = s.head := by cases sd <;> rfl
@[simp] theorem State.setInTx_tail (s : State) (sd : Side) (v : Bool) : (s.setInTx sd v).tail = s.tail := by cases sd <;> rfl
@[simp] theorem State.setInTx_wb (s : State) (sd : Side) (v : Bool) : (s.setInTx sd v).wb = s.wb := by cases sd <;> rfl
@[simp] theorem State.setInTx_rb (s : State) (sd : Side) (v : Bool) : (s.setInTx sd v).rb = s.rb := by cases sd <;> rfl
@[simp] theorem State.setInTx_P_pIntx (s : State) (v : Bool) : (s.setInTx .P v).pIntx = v := rfl
@[simp] theorem State.setInTx_C_pIntx (s : State) (v : Bool) : (s.setInTx .C v).pIntx = s.pIntx := rfl
@[simp] theorem State.setInTx_pPending (s : State) (sd : Side) (v : Bool) : (s.setInTx sd v).pPending = s.pPending := by cases sd <;> rfl
@[simp] theorem State.setInTx_pTailSeen (s : State) (sd : Side) (v : Bool) : (s.setInTx sd v).pTailSeen = s.pTailSeen := by cases sd <;> rfl
@[simp] theorem State.setInTx_P_cIntx (s : State) (v : Bool) : (s.setInTx .P v).cIntx = s.cIntx := rfl
@[simp] theorem State.setInTx_C_cIntx (s : State) (v : Bool) : (s.setInTx .C v).cIntx = v := rfl
@[simp] theorem State.setInTx_cPending (s : State) (sd : Side) (v : Bool) : (s.setInTx sd v).cPending = s.cPending := by cases sd <;> rfl
@[simp] theorem State.setInTx_cHeadSeen (s : State) (sd : Side) (v : Bool) : (s.setInTx sd v).cHeadSeen = s.cHeadSeen := by cases sd <;> rfl
@[simp] theorem State.setInTx_fault (s : State) (sd : Side) (v : Bool) : (s.setInTx sd v).fault = s.fault := by cases sd <;> rfl
@[simp] theorem State.setInTx_ram (s : State) (sd : Side) (v : Bool) : (s.setInTx sd v).ram = s.ram := by cases sd <;> rfl
@[simp] theorem State.setInTx_pQueue (s : State) (sd : Side) (v : Bool) : (s.setInTx sd v).pQueue = s.pQueue := by cases sd <;> rfl
@[simp] theorem State.setInTx_cQueue (s : State) (sd : Side) (v : Bool) : (s.setInTx sd v).cQueue = s.cQueue := by cases sd <;> rfl
@[simp] theorem State.setInTx_grants (s : State) (sd : Side) (v : Bool) : (s.setInTx sd v).grants = s.grants := by cases sd <;> rfl
@[simp] theorem State.setInTx_resetIn (s : State) (sd : Side) (v : Bool) : (s.setInTx sd v).resetIn = s.resetIn := by cases sd <;> rfl
@[simp] theorem State.setInTx_responses (s : State) (sd : Side) (v : Bool) : (s.setInTx sd v).responses = s.responses := by cases sd <;> rfl
@[simp] theorem State.setInTx_tick (s : State) (sd : Side) (v : Bool) : (s.setInTx sd v).tick = s.tick := by cases sd <;> rfl
@[simp] theorem State.setInTx_pLagLeft (s : State) (sd : Side) (v : Bool) : (s.setInTx sd v).pLagLeft = s.pLagLeft := by cases sd <;> rfl
@[simp] theorem State.setInTx_pLagGoal (s : State) (sd : Side) (v : Bool) : (s.setInTx sd v).pLagGoal = s.pLagGoal := by cases sd <;> rfl
@[simp] theorem State.setInTx_cLagLeft (s : State) (sd : Side) (v : Bool) : (s.setInTx sd v).cLagLeft = s.cLagLeft := by cases sd <;> rfl
@[simp] theorem State.setInTx_cLagGoal (s : State) (sd : Side) (v : Bool) : (s.setInTx sd v).cLagGoal = s.cLagGoal := by cases sd <;> rfl
@[simp] theorem State.setInTx_ownReads (s : State) (sd : Side) (v : Bool) : (s.setInTx sd v).ownReads = s.ownReads := by cases sd <;> rfl
@[simp] theorem State.setInTx_capacity (s : State) (sd : Side) (v : Bool) : (s.setInTx sd v).capacity = s.capacity := by cases sd <;> rfl
@[simp] theorem State.setInTx_mask (s : State) (sd : Side) (v : Bool) : (s.setInTx sd v).mask = s.mask := by cases sd <;> rfl

/-! ### setPending -/

@[simp] theorem State.setPending_cfg (s : State) (sd : Side) (v : Word) : (s.setPending sd v).cfg = s.cfg := by cases sd <;> rfl
@[simp] theorem State.setPending_head (s : State) (sd : Side) (v : Word) : (s.setPending sd v).head = s.head := by cases sd <;> rfl
@[simp] theorem State.setPending_tail (s : State) (sd : Side) (v : Word) : (s.setPending sd v).tail = s.tail := by cases sd <;> rfl
@[simp] theorem State.setPending_wb (s : State) (sd : Side) (v : Word) : (s.setPending sd v).wb = s.wb := by cases sd <;> rfl
@[simp] theorem State.setPending_rb (s : State) (sd : Side) (v : Word) : (s.setPending sd v).rb = s.rb := by cases sd <;> rfl
@[simp] theorem State.setPending_pIntx (s : State) (sd : Side) (v : Word) : (s.setPending sd v).pIntx = s.pIntx := by cases sd <;> rfl
@[simp] theorem State.setPending_P_pPending (s : State) (v : Word) : (s.setPending .P v).pPending = v := rfl
@[simp] theorem State.setPending_C_pPending (s : State) (v : Word) : (s.setPending .C v).pPending = s.pPending := rfl
@[simp] theorem State.setPending_pTailSeen (s : State) (sd : Side) (v : Word) : (s.setPending sd v).pTailSeen = s.pTailSeen := by cases sd <;> rfl
@[simp] theorem State.setPending_cIntx (s : State) (sd : Side) (v : Word) : (s.setPending sd v).cIntx = s.cIntx := by cases sd <;> rfl
@[simp] theorem State.setPending_P_cPending (s : State) (v : Word) : (s.setPending .P v).cPending = s.cPending := rfl
@[simp] theorem State.setPending_C_cPending (s : State) (v : Word) : (s.setPending .C v).cPending = v := rfl
@[simp] theorem State.setPending_cHeadSeen (s : State) (sd : Side) (v : Word) : (s.setPending sd v).cHeadSeen = s.cHeadSeen := by cases sd <;> rfl
@[simp] theorem State.setPending_fault (s : State) (sd : Side) (v : Word) : (s.setPending sd v).fault = s.fault := by cases sd <;> rfl
@[simp] theorem State.setPending_ram (s : State) (sd : Side) (v : Word) : (s.setPending sd v).ram = s.ram := by cases sd <;> rfl
@[simp] theorem State.setPending_pQueue (s : State) (sd : Side) (v : Word) : (s.setPending sd v).pQueue = s.pQueue := by cases sd <;> rfl
@[simp] theorem State.setPending_cQueue (s : State) (sd : Side) (v : Word) : (s.setPending sd v).cQueue = s.cQueue := by cases sd <;> rfl
@[simp] theorem State.setPending_grants (s : State) (sd : Side) (v : Word) : (s.setPending sd v).grants = s.grants := by cases sd <;> rfl
@[simp] theorem State.setPending_resetIn (s : State) (sd : Side) (v : Word) : (s.setPending sd v).resetIn = s.resetIn := by cases sd <;> rfl
@[simp] theorem State.setPending_responses (s : State) (sd : Side) (v : Word) : (s.setPending sd v).responses = s.responses := by cases sd <;> rfl
@[simp] theorem State.setPending_tick (s : State) (sd : Side) (v : Word) : (s.setPending sd v).tick = s.tick := by cases sd <;> rfl
@[simp] theorem State.setPending_pLagLeft (s : State) (sd : Side) (v : Word) : (s.setPending sd v).pLagLeft = s.pLagLeft := by cases sd <;> rfl
@[simp] theorem State.setPending_pLagGoal (s : State) (sd : Side) (v : Word) : (s.setPending sd v).pLagGoal = s.pLagGoal := by cases sd <;> rfl
@[simp] theorem State.setPending_cLagLeft (s : State) (sd : Side) (v : Word) : (s.setPending sd v).cLagLeft = s.cLagLeft := by cases sd <;> rfl
@[simp] theorem State.setPending_cLagGoal (s : State) (sd : Side) (v : Word) : (s.setPending sd v).cLagGoal = s.cLagGoal := by cases sd <;> rfl
@[simp] theorem State.setPending_ownReads (s : State) (sd : Side) (v : Word) : (s.setPending sd v).ownReads = s.ownReads := by cases sd <;> rfl
@[simp] theorem State.setPending_capacity (s : State) (sd : Side) (v : Word) : (s.setPending sd v).capacity = s.capacity := by cases sd <;> rfl
@[simp] theorem State.setPending_mask (s : State) (sd : Side) (v : Word) : (s.setPending sd v).mask = s.mask := by cases sd <;> rfl

/-! ### setSeen -/

@[simp] theorem State.setSeen_cfg (s : State) (sd : Side) (v : Word) : (s.setSeen sd v).cfg = s.cfg := by cases sd <;> rfl
@[simp] theorem State.setSeen_head (s : State) (sd : Side) (v : Word) : (s.setSeen sd v).head = s.head := by cases sd <;> rfl
@[simp] theorem State.setSeen_tail (s : State) (sd : Side) (v : Word) : (s.setSeen sd v).tail = s.tail := by cases sd <;> rfl
@[simp] theorem State.setSeen_wb (s : State) (sd : Side) (v : Word) : (s.setSeen sd v).wb = s.wb := by cases sd <;> rfl
@[simp] theorem State.setSeen_rb (s : State) (sd : Side) (v : Word) : (s.setSeen sd v).rb = s.rb := by cases sd <;> rfl
@[simp] theorem State.setSeen_pIntx (s : State) (sd : Side) (v : Word) : (s.setSeen sd v).pIntx = s.pIntx := by cases sd <;> rfl
@[simp] theorem State.setSeen_pPending (s : State) (sd : Side) (v : Word) : (s.setSeen sd v).pPending = s.pPending := by cases sd <;> rfl
@[simp] theorem State.setSeen_P_pTailSeen (s : State) (v : Word) : (s.setSeen .P v).pTailSeen = v := rfl
@[simp] theorem State.setSeen_C_pTailSeen (s : State) (v : Word) : (s.setSeen .C v).pTailSeen = s.pTailSeen := rfl
@[simp] theorem State.setSeen_cIntx (s : State) (sd : Side) (v : Word) : (s.setSeen sd v).cIntx = s.cIntx := by cases sd <;> rfl
@[simp] theorem State.setSeen_cPending (s : State) (sd : Side) (v : Word) : (s.setSeen sd v).cPending = s.cPending := by cases sd <;> rfl
@[simp] theorem State.setSeen_P_cHeadSeen (s : State) (v : Word) : (s.setSeen .P v).cHeadSeen = s.cHeadSeen := rfl
@[simp] theorem State.setSeen_C_cHeadSeen (s : State) (v : Word) : (s.setSeen .C v).cHeadSeen = v := rfl
@[simp] theorem State.setSeen_fault (s : State) (sd : Side) (v : Word) : (s.setSeen sd v).fault = s.fault := by cases sd <;> rfl
@[simp] theorem State.setSeen_ram (s : State) (sd : Side) (v : Word) : (s.setSeen sd v).ram = s.ram := by cases sd <;> rfl
@[simp] theorem State.setSeen_pQueue (s : State) (sd : Side) (v : Word) : (s.setSeen sd v).pQueue = s.pQueue := by cases sd <;> rfl
@[simp] theorem State.setSeen_cQueue (s : State) (sd : Side) (v : Word) : (s.setSeen sd v).cQueue = s.cQueue := by cases sd <;> rfl
@[simp] theorem State.setSeen_grants (s : State) (sd : Side) (v : Word) : (s.setSeen sd v).grants = s.grants := by cases sd <;> rfl
@[simp] theorem State.setSeen_resetIn (s : State) (sd : Side) (v : Word) : (s.setSeen sd v).resetIn = s.resetIn := by cases sd <;> rfl
@[simp] theorem State.setSeen_responses (s : State) (sd : Side) (v : Word) : (s.setSeen sd v).responses = s.responses := by cases sd <;> rfl
@[simp] theorem State.setSeen_tick (s : State) (sd : Side) (v : Word) : (s.setSeen sd v).tick = s.tick := by cases sd <;> rfl
@[simp] theorem State.setSeen_pLagLeft (s : State) (sd : Side) (v : Word) : (s.setSeen sd v).pLagLeft = s.pLagLeft := by cases sd <;> rfl
@[simp] theorem State.setSeen_pLagGoal (s : State) (sd : Side) (v : Word) : (s.setSeen sd v).pLagGoal = s.pLagGoal := by cases sd <;> rfl
@[simp] theorem State.setSeen_cLagLeft (s : State) (sd : Side) (v : Word) : (s.setSeen sd v).cLagLeft = s.cLagLeft := by cases sd <;> rfl
@[simp] theorem State.setSeen_cLagGoal (s : State) (sd : Side) (v : Word) : (s.setSeen sd v).cLagGoal = s.cLagGoal := by cases sd <;> rfl
@[simp] theorem State.setSeen_ownReads (s : State) (sd : Side) (v : Word) : (s.setSeen sd v).ownReads = s.ownReads := by cases sd <;> rfl
@[simp] theorem State.setSeen_capacity (s : State) (sd : Side) (v : Word) : (s.setSeen sd v).capacity = s.capacity := by cases sd <;> rfl
@[simp] theorem State.setSeen_mask (s : State) (sd : Side) (v : Word) : (s.setSeen sd v).mask = s.mask := by cases sd <;> rfl

/-! ### setGuard -/

@[simp] theorem State.setGuard_cfg (s : State) (sd : Side) (v : Bool) : (s.setGuard sd v).cfg = s.cfg := by cases sd <;> rfl
@[simp] theorem State.setGuard_head (s : State) (sd : Side) (v : Bool) : (s.setGuard sd v).head = s.head := by cases sd <;> rfl
@[simp] theorem State.setGuard_tail (s : State) (sd : Side) (v : Bool) : (s.setGuard sd v).tail = s.tail := by cases sd <;> rfl
@[simp] theorem State.setGuard_P_wb (s : State) (v : Bool) : (s.setGuard .P v).wb = v := rfl
@[simp] theorem State.setGuard_C_wb (s : State) (v : Bool) : (s.setGuard .C v).wb = s.wb := rfl
@[simp] theorem State.setGuard_P_rb (s : State) (v : Bool) : (s.setGuard .P v).rb = s.rb := rfl
@[simp] theorem State.setGuard_C_rb (s : State) (v : Bool) : (s.setGuard .C v).rb = v := rfl
@[simp] theorem State.setGuard_pIntx (s : State) (sd : Side) (v : Bool) : (s.setGuard sd v).pIntx = s.pIntx := by cases sd <;> rfl
@[simp] theorem State.setGuard_pPending (s : State) (sd : Side) (v : Bool) : (s.setGuard sd v).pPending = s.pPending := by cases sd <;> rfl
@[simp] theorem State.setGuard_pTailSeen (s : State) (sd : Side) (v : Bool) : (s.setGuard sd v).pTailSeen = s.pTailSeen := by cases sd <;> rfl
@[simp] theorem State.setGuard_cIntx (s : State) (sd : Side) (v : Bool) : (s.setGuard sd v).cIntx = s.cIntx := by cases sd <;> rfl
@[simp] theorem State.setGuard_cPending (s : State) (sd : Side) (v : Bool) : (s.setGuard sd v).cPending = s.cPending := by cases sd <;> rfl
@[simp] theorem State.setGuard_cHeadSeen (s : State) (sd : Side) (v : Bool) : (s.setGuard sd v).cHeadSeen = s.cHeadSeen := by cases sd <;> rfl
@[simp] theorem State.setGuard_fault (s : State) (sd : Side) (v : Bool) : (s.setGuard sd v).fault = s.fault := by cases sd <;> rfl
@[simp] theorem State.setGuard_ram (s : State) (sd : Side) (v : Bool) : (s.setGuard sd v).ram = s.ram := by cases sd <;> rfl
@[simp] theorem State.setGuard_pQueue (s : State) (sd : Side) (v : Bool) : (s.setGuard sd v).pQueue = s.pQueue := by cases sd <;> rfl
@[simp] theorem State.setGuard_cQueue (s : State) (sd : Side) (v : Bool) : (s.setGuard sd v).cQueue = s.cQueue := by cases sd <;> rfl
@[simp] theorem State.setGuard_grants (s : State) (sd : Side) (v : Bool) : (s.setGuard sd v).grants = s.grants := by cases sd <;> rfl
@[simp] theorem State.setGuard_resetIn (s : State) (sd : Side) (v : Bool) : (s.setGuard sd v).resetIn = s.resetIn := by cases sd <;> rfl
@[simp] theorem State.setGuard_responses (s : State) (sd : Side) (v : Bool) : (s.setGuard sd v).responses = s.responses := by cases sd <;> rfl
@[simp] theorem State.setGuard_tick (s : State) (sd : Side) (v : Bool) : (s.setGuard sd v).tick = s.tick := by cases sd <;> rfl
@[simp] theorem State.setGuard_pLagLeft (s : State) (sd : Side) (v : Bool) : (s.setGuard sd v).pLagLeft = s.pLagLeft := by cases sd <;> rfl
@[simp] theorem State.setGuard_pLagGoal (s : State) (sd : Side) (v : Bool) : (s.setGuard sd v).pLagGoal = s.pLagGoal := by cases sd <;> rfl
@[simp] theorem State.setGuard_cLagLeft (s : State) (sd : Side) (v : Bool) : (s.setGuard sd v).cLagLeft = s.cLagLeft := by cases sd <;> rfl
@[simp] theorem State.setGuard_cLagGoal (s : State) (sd : Side) (v : Bool) : (s.setGuard sd v).cLagGoal = s.cLagGoal := by cases sd <;> rfl
@[simp] theorem State.setGuard_ownReads (s : State) (sd : Side) (v : Bool) : (s.setGuard sd v).ownReads = s.ownReads := by cases sd <;> rfl
@[simp] theorem State.setGuard_capacity (s : State) (sd : Side) (v : Bool) : (s.setGuard sd v).capacity = s.capacity := by cases sd <;> rfl
@[simp] theorem State.setGuard_mask (s : State) (sd : Side) (v : Bool) : (s.setGuard sd v).mask = s.mask := by cases sd <;> rfl

/-! ### setLag -/

@[simp] theorem State.setLag_cfg (s : State) (sd : Side) (left : Nat) (goal : Word) : (s.setLag sd left goal).cfg = s.cfg := by cases sd <;> rfl
@[simp] theorem State.setLag_head (s : State) (sd : Side) (left : Nat) (goal : Word) : (s.setLag sd left goal).head = s.head := by cases sd <;> rfl
@[simp] theorem State.setLag_tail (s : State) (sd : Side) (left : Nat) (goal : Word) : (s.setLag sd left goal).tail = s.tail := by cases sd <;> rfl
@[simp] theorem State.setLag_wb (s : State) (sd : Side) (left : Nat) (goal : Word) : (s.setLag sd left goal).wb = s.wb := by cases sd <;> rfl
@[simp] theorem State.setLag_rb (s : State) (sd : Side) (left : Nat) (goal : Word) : (s.setLag sd left goal).rb = s.rb := by cases sd <;> rfl
@[simp] theorem State.setLag_pIntx (s : State) (sd : Side) (left : Nat) (goal : Word) : (s.setLag sd left goal).pIntx = s.pIntx := by cases sd <;> rfl
@[simp] theorem State.setLag_pPending (s : State) (sd : Side) (left : Nat) (goal : Word) : (s.setLag sd left goal).pPending = s.pPending := by cases sd <;> rfl
@[simp] theorem State.setLag_pTailSeen (s : State) (sd : Side) (left : Nat) (goal : Word) : (s.setLag sd left goal).pTailSeen = s.pTailSeen := by cases sd <;> rfl
@[simp] theorem State.setLag_cIntx (s : State) (sd : Side) (left : Nat) (goal : Word) : (s.setLag sd left goal).cIntx = s.cIntx := by cases sd <;> rfl
@[simp] theorem State.setLag_cPending (s : State) (sd : Side) (left : Nat) (goal : Word) : (s.setLag sd left goal).cPending = s.cPending := by cases sd <;> rfl
@[simp] theorem State.setLag_cHeadSeen (s : State) (sd : Side) (left : Nat) (goal : Word) : (s.setLag sd left goal).cHeadSeen = s.cHeadSeen := by cases sd <;> rfl
@[simp] theorem State.setLag_fault (s : State) (sd : Side) (left : Nat) (goal : Word) : (s.setLag sd left goal).fault = s.fault := by cases sd <;> rfl
@[simp] theorem State.setLag_ram (s : State) (sd : Side) (left : Nat) (goal : Word) : (s.setLag sd left goal).ram = s.ram := by cases sd <;> rfl
@[simp] theorem State.setLag_pQueue (s : State) (sd : Side) (left : Nat) (goal : Word) : (s.setLag sd left goal).pQueue = s.pQueue := by cases sd <;> rfl
@[simp] theorem State.setLag_cQueue (s : State) (sd : Side) (left : Nat) (goal : Word) : (s.setLag sd left goal).cQueue = s.cQueue := by cases sd <;> rfl
@[simp] theorem State.setLag_grants (s : State) (sd : Side) (left : Nat) (goal : Word) : (s.setLag sd left goal).grants = s.grants := by cases sd <;> rfl
@[simp] theorem State.setLag_resetIn (s : State) (sd : Side) (left : Nat) (goal : Word) : (s.setLag sd left goal).resetIn = s.resetIn := by cases sd <;> rfl
@[simp] theorem State.setLag_responses (s : State) (sd : Side) (left : Nat) (goal : Word) : (s.setLag sd left goal).responses = s.responses := by cases sd <;> rfl
@[simp] theorem State.setLag_tick (s : State) (sd : Side) (left : Nat) (goal : Word) : (s.setLag sd left goal).tick = s.tick := by cases sd <;> rfl
@[simp] theorem State.setLag_P_pLagLeft (s : State) (left : Nat) (goal : Word) : (s.setLag .P left goal).pLagLeft = left := rfl
@[simp] theorem State.setLag_C_pLagLeft (s : State) (left : Nat) (goal : Word) : (s.setLag .C left goal).pLagLeft = s.pLagLeft := rfl
@[simp] theorem State.setLag_P_pLagGoal (s : State) (left : Nat) (goal : Word) : (s.setLag .P left goal).pLagGoal = goal := rfl
@[simp] theorem State.setLag_C_pLagGoal (s : State) (left : Nat) (goal : Word) : (s.setLag .C left goal).pLagGoal = s.pLagGoal := rfl
@[simp] theorem State.setLag_P_cLagLeft (s : State) (left : Nat) (goal : Word) : (s.setLag .P left goal).cLagLeft = s.cLagLeft := rfl
@[simp] theorem State.setLag_C_cLagLeft (s : State) (left : Nat) (goal : Word) : (s.setLag .C left goal).cLagLeft = left := rfl
@[simp] theorem State.setLag_P_cLagGoal (s : State) (left : Nat) (goal : Word) : (s.setLag .P left goal).cLagGoal = s.cLagGoal := rfl
@[simp] theorem State.setLag_C_cLagGoal (s : State) (left : Nat) (goal : Word) : (s.setLag .C left goal).cLagGoal = goal := rfl
@[simp] theorem State.setLag_ownReads (s : State) (sd : Side) (left : Nat) (goal : Word) : (s.setLag sd left goal).ownReads = s.ownReads := by cases sd <;> rfl
@[simp] theorem State.setLag_capacity (s : State) (sd : Side) (left : Nat) (goal : Word) : (s.setLag sd left goal).capacity = s.capacity := by cases sd <;> rfl
@[simp] theorem State.setLag_mask (s : State) (sd : Side) (left : Nat) (goal : Word) : (s.setLag sd left goal).mask = s.mask := by cases sd <;> rfl

/-- Setting a side's plan to what it is changes nothing. -/
@[simp] theorem State.setLag_self (s : State) (sd : Side) : s.setLag sd (s.lagLeft sd) (s.lagGoal sd) = s := by cases sd <;> rfl


/-! ### stickyFault -/

@[simp] theorem State.stickyFault_cfg (s : State) (sd : Side) (m : Misuse) : (s.stickyFault sd m).cfg = s.cfg := rfl
@[simp] theorem State.stickyFault_head (s : State) (sd : Side) (m : Misuse) : (s.stickyFault sd m).head = s.head := rfl
@[simp] theorem State.stickyFault_tail (s : State) (sd : Side) (m : Misuse) : (s.stickyFault sd m).tail = s.tail := rfl
@[simp] theorem State.stickyFault_wb (s : State) (sd : Side) (m : Misuse) : (s.stickyFault sd m).wb = s.wb := rfl
@[simp] theorem State.stickyFault_rb (s : State) (sd : Side) (m : Misuse) : (s.stickyFault sd m).rb = s.rb := rfl
@[simp] theorem State.stickyFault_pIntx (s : State) (sd : Side) (m : Misuse) : (s.stickyFault sd m).pIntx = s.pIntx := rfl
@[simp] theorem State.stickyFault_pPending (s : State) (sd : Side) (m : Misuse) : (s.stickyFault sd m).pPending = s.pPending := rfl
@[simp] theorem State.stickyFault_pTailSeen (s : State) (sd : Side) (m : Misuse) : (s.stickyFault sd m).pTailSeen = s.pTailSeen := rfl
@[simp] theorem State.stickyFault_cIntx (s : State) (sd : Side) (m : Misuse) : (s.stickyFault sd m).cIntx = s.cIntx := rfl
@[simp] theorem State.stickyFault_cPending (s : State) (sd : Side) (m : Misuse) : (s.stickyFault sd m).cPending = s.cPending := rfl
@[simp] theorem State.stickyFault_cHeadSeen (s : State) (sd : Side) (m : Misuse) : (s.stickyFault sd m).cHeadSeen = s.cHeadSeen := rfl
@[simp] theorem State.stickyFault_fault (s : State) (sd : Side) (m : Misuse) : (s.stickyFault sd m).fault = s.fault ||| BitVec.twoPow 64 (faultBit sd m) := rfl
@[simp] theorem State.stickyFault_ram (s : State) (sd : Side) (m : Misuse) : (s.stickyFault sd m).ram = s.ram := rfl
@[simp] theorem State.stickyFault_pQueue (s : State) (sd : Side) (m : Misuse) : (s.stickyFault sd m).pQueue = s.pQueue := rfl
@[simp] theorem State.stickyFault_cQueue (s : State) (sd : Side) (m : Misuse) : (s.stickyFault sd m).cQueue = s.cQueue := rfl
@[simp] theorem State.stickyFault_grants (s : State) (sd : Side) (m : Misuse) : (s.stickyFault sd m).grants = s.grants := rfl
@[simp] theorem State.stickyFault_resetIn (s : State) (sd : Side) (m : Misuse) : (s.stickyFault sd m).resetIn = s.resetIn := rfl
@[simp] theorem State.stickyFault_responses (s : State) (sd : Side) (m : Misuse) : (s.stickyFault sd m).responses = s.responses := rfl
@[simp] theorem State.stickyFault_tick (s : State) (sd : Side) (m : Misuse) : (s.stickyFault sd m).tick = s.tick := rfl
@[simp] theorem State.stickyFault_pLagLeft (s : State) (sd : Side) (m : Misuse) : (s.stickyFault sd m).pLagLeft = s.pLagLeft := rfl
@[simp] theorem State.stickyFault_pLagGoal (s : State) (sd : Side) (m : Misuse) : (s.stickyFault sd m).pLagGoal = s.pLagGoal := rfl
@[simp] theorem State.stickyFault_cLagLeft (s : State) (sd : Side) (m : Misuse) : (s.stickyFault sd m).cLagLeft = s.cLagLeft := rfl
@[simp] theorem State.stickyFault_cLagGoal (s : State) (sd : Side) (m : Misuse) : (s.stickyFault sd m).cLagGoal = s.cLagGoal := rfl
@[simp] theorem State.stickyFault_ownReads (s : State) (sd : Side) (m : Misuse) : (s.stickyFault sd m).ownReads = s.ownReads := rfl
@[simp] theorem State.stickyFault_capacity (s : State) (sd : Side) (m : Misuse) : (s.stickyFault sd m).capacity = s.capacity := rfl
@[simp] theorem State.stickyFault_mask (s : State) (sd : Side) (m : Misuse) : (s.stickyFault sd m).mask = s.mask := rfl

/-! ### respond -/

@[simp] theorem State.respond_cfg (s : State) (port : Side) (r : Response) : (s.respond port r).cfg = s.cfg := rfl
@[simp] theorem State.respond_head (s : State) (port : Side) (r : Response) : (s.respond port r).head = s.head := rfl
@[simp] theorem State.respond_tail (s : State) (port : Side) (r : Response) : (s.respond port r).tail = s.tail := rfl
@[simp] theorem State.respond_wb (s : State) (port : Side) (r : Response) : (s.respond port r).wb = s.wb := rfl
@[simp] theorem State.respond_rb (s : State) (port : Side) (r : Response) : (s.respond port r).rb = s.rb := rfl
@[simp] theorem State.respond_pIntx (s : State) (port : Side) (r : Response) : (s.respond port r).pIntx = s.pIntx := rfl
@[simp] theorem State.respond_pPending (s : State) (port : Side) (r : Response) : (s.respond port r).pPending = s.pPending := rfl
@[simp] theorem State.respond_pTailSeen (s : State) (port : Side) (r : Response) : (s.respond port r).pTailSeen = s.pTailSeen := rfl
@[simp] theorem State.respond_cIntx (s : State) (port : Side) (r : Response) : (s.respond port r).cIntx = s.cIntx := rfl
@[simp] theorem State.respond_cPending (s : State) (port : Side) (r : Response) : (s.respond port r).cPending = s.cPending := rfl
@[simp] theorem State.respond_cHeadSeen (s : State) (port : Side) (r : Response) : (s.respond port r).cHeadSeen = s.cHeadSeen := rfl
@[simp] theorem State.respond_fault (s : State) (port : Side) (r : Response) : (s.respond port r).fault = s.fault := rfl
@[simp] theorem State.respond_ram (s : State) (port : Side) (r : Response) : (s.respond port r).ram = s.ram := rfl
@[simp] theorem State.respond_pQueue (s : State) (port : Side) (r : Response) : (s.respond port r).pQueue = s.pQueue := rfl
@[simp] theorem State.respond_cQueue (s : State) (port : Side) (r : Response) : (s.respond port r).cQueue = s.cQueue := rfl
@[simp] theorem State.respond_grants (s : State) (port : Side) (r : Response) : (s.respond port r).grants = s.grants := rfl
@[simp] theorem State.respond_resetIn (s : State) (port : Side) (r : Response) : (s.respond port r).resetIn = s.resetIn := rfl
@[simp] theorem State.respond_responses (s : State) (port : Side) (r : Response) : (s.respond port r).responses = s.responses ++ [(port, r)] := rfl
@[simp] theorem State.respond_tick (s : State) (port : Side) (r : Response) : (s.respond port r).tick = s.tick := rfl
@[simp] theorem State.respond_pLagLeft (s : State) (port : Side) (r : Response) : (s.respond port r).pLagLeft = s.pLagLeft := rfl
@[simp] theorem State.respond_pLagGoal (s : State) (port : Side) (r : Response) : (s.respond port r).pLagGoal = s.pLagGoal := rfl
@[simp] theorem State.respond_cLagLeft (s : State) (port : Side) (r : Response) : (s.respond port r).cLagLeft = s.cLagLeft := rfl
@[simp] theorem State.respond_cLagGoal (s : State) (port : Side) (r : Response) : (s.respond port r).cLagGoal = s.cLagGoal := rfl
@[simp] theorem State.respond_ownReads (s : State) (port : Side) (r : Response) : (s.respond port r).ownReads = s.ownReads := rfl
@[simp] theorem State.respond_capacity (s : State) (port : Side) (r : Response) : (s.respond port r).capacity = s.capacity := rfl
@[simp] theorem State.respond_mask (s : State) (port : Side) (r : Response) : (s.respond port r).mask = s.mask := rfl

/-! ### memWrite -/

@[simp] theorem State.memWrite_cfg (s : State) (o : Word) (v : Byte) : (s.memWrite o v).cfg = s.cfg := rfl
@[simp] theorem State.memWrite_head (s : State) (o : Word) (v : Byte) : (s.memWrite o v).head = s.head := rfl
@[simp] theorem State.memWrite_tail (s : State) (o : Word) (v : Byte) : (s.memWrite o v).tail = s.tail := rfl
@[simp] theorem State.memWrite_wb (s : State) (o : Word) (v : Byte) : (s.memWrite o v).wb = s.wb := rfl
@[simp] theorem State.memWrite_rb (s : State) (o : Word) (v : Byte) : (s.memWrite o v).rb = s.rb := rfl
@[simp] theorem State.memWrite_pIntx (s : State) (o : Word) (v : Byte) : (s.memWrite o v).pIntx = s.pIntx := rfl
@[simp] theorem State.memWrite_pPending (s : State) (o : Word) (v : Byte) : (s.memWrite o v).pPending = s.pPending := rfl
@[simp] theorem State.memWrite_pTailSeen (s : State) (o : Word) (v : Byte) : (s.memWrite o v).pTailSeen = s.pTailSeen := rfl
@[simp] theorem State.memWrite_cIntx (s : State) (o : Word) (v : Byte) : (s.memWrite o v).cIntx = s.cIntx := rfl
@[simp] theorem State.memWrite_cPending (s : State) (o : Word) (v : Byte) : (s.memWrite o v).cPending = s.cPending := rfl
@[simp] theorem State.memWrite_cHeadSeen (s : State) (o : Word) (v : Byte) : (s.memWrite o v).cHeadSeen = s.cHeadSeen := rfl
@[simp] theorem State.memWrite_fault (s : State) (o : Word) (v : Byte) : (s.memWrite o v).fault = s.fault := rfl
@[simp] theorem State.memWrite_ram (s : State) (o : Word) (v : Byte) : (s.memWrite o v).ram = s.ram.write o.toNat v := rfl
@[simp] theorem State.memWrite_pQueue (s : State) (o : Word) (v : Byte) : (s.memWrite o v).pQueue = s.pQueue := rfl
@[simp] theorem State.memWrite_cQueue (s : State) (o : Word) (v : Byte) : (s.memWrite o v).cQueue = s.cQueue := rfl
@[simp] theorem State.memWrite_grants (s : State) (o : Word) (v : Byte) : (s.memWrite o v).grants = s.grants := rfl
@[simp] theorem State.memWrite_resetIn (s : State) (o : Word) (v : Byte) : (s.memWrite o v).resetIn = s.resetIn := rfl
@[simp] theorem State.memWrite_responses (s : State) (o : Word) (v : Byte) : (s.memWrite o v).responses = s.responses := rfl
@[simp] theorem State.memWrite_tick (s : State) (o : Word) (v : Byte) : (s.memWrite o v).tick = s.tick := rfl
@[simp] theorem State.memWrite_pLagLeft (s : State) (o : Word) (v : Byte) : (s.memWrite o v).pLagLeft = s.pLagLeft := rfl
@[simp] theorem State.memWrite_pLagGoal (s : State) (o : Word) (v : Byte) : (s.memWrite o v).pLagGoal = s.pLagGoal := rfl
@[simp] theorem State.memWrite_cLagLeft (s : State) (o : Word) (v : Byte) : (s.memWrite o v).cLagLeft = s.cLagLeft := rfl
@[simp] theorem State.memWrite_cLagGoal (s : State) (o : Word) (v : Byte) : (s.memWrite o v).cLagGoal = s.cLagGoal := rfl
@[simp] theorem State.memWrite_ownReads (s : State) (o : Word) (v : Byte) : (s.memWrite o v).ownReads = s.ownReads := rfl
@[simp] theorem State.memWrite_capacity (s : State) (o : Word) (v : Byte) : (s.memWrite o v).capacity = s.capacity := rfl
@[simp] theorem State.memWrite_mask (s : State) (o : Word) (v : Byte) : (s.memWrite o v).mask = s.mask := rfl

/-! ### copyIn -/

@[simp] theorem State.copyIn_cfg (s : State) (start : Word) (bs : List Byte) : (s.copyIn start bs).cfg = s.cfg := rfl
@[simp] theorem State.copyIn_head (s : State) (start : Word) (bs : List Byte) : (s.copyIn start bs).head = s.head := rfl
@[simp] theorem State.copyIn_tail (s : State) (start : Word) (bs : List Byte) : (s.copyIn start bs).tail = s.tail := rfl
@[simp] theorem State.copyIn_wb (s : State) (start : Word) (bs : List Byte) : (s.copyIn start bs).wb = s.wb := rfl
@[simp] theorem State.copyIn_rb (s : State) (start : Word) (bs : List Byte) : (s.copyIn start bs).rb = s.rb := rfl
@[simp] theorem State.copyIn_pIntx (s : State) (start : Word) (bs : List Byte) : (s.copyIn start bs).pIntx = s.pIntx := rfl
@[simp] theorem State.copyIn_pPending (s : State) (start : Word) (bs : List Byte) : (s.copyIn start bs).pPending = s.pPending := rfl
@[simp] theorem State.copyIn_pTailSeen (s : State) (start : Word) (bs : List Byte) : (s.copyIn start bs).pTailSeen = s.pTailSeen := rfl
@[simp] theorem State.copyIn_cIntx (s : State) (start : Word) (bs : List Byte) : (s.copyIn start bs).cIntx = s.cIntx := rfl
@[simp] theorem State.copyIn_cPending (s : State) (start : Word) (bs : List Byte) : (s.copyIn start bs).cPending = s.cPending := rfl
@[simp] theorem State.copyIn_cHeadSeen (s : State) (start : Word) (bs : List Byte) : (s.copyIn start bs).cHeadSeen = s.cHeadSeen := rfl
@[simp] theorem State.copyIn_fault (s : State) (start : Word) (bs : List Byte) : (s.copyIn start bs).fault = s.fault := rfl
@[simp] theorem State.copyIn_ram (s : State) (start : Word) (bs : List Byte) : (s.copyIn start bs).ram = s.writeWindow start 0 bs s.ram := rfl
@[simp] theorem State.copyIn_pQueue (s : State) (start : Word) (bs : List Byte) : (s.copyIn start bs).pQueue = s.pQueue := rfl
@[simp] theorem State.copyIn_cQueue (s : State) (start : Word) (bs : List Byte) : (s.copyIn start bs).cQueue = s.cQueue := rfl
@[simp] theorem State.copyIn_grants (s : State) (start : Word) (bs : List Byte) : (s.copyIn start bs).grants = s.grants := rfl
@[simp] theorem State.copyIn_resetIn (s : State) (start : Word) (bs : List Byte) : (s.copyIn start bs).resetIn = s.resetIn := rfl
@[simp] theorem State.copyIn_responses (s : State) (start : Word) (bs : List Byte) : (s.copyIn start bs).responses = s.responses := rfl
@[simp] theorem State.copyIn_tick (s : State) (start : Word) (bs : List Byte) : (s.copyIn start bs).tick = s.tick := rfl
@[simp] theorem State.copyIn_pLagLeft (s : State) (start : Word) (bs : List Byte) : (s.copyIn start bs).pLagLeft = s.pLagLeft := rfl
@[simp] theorem State.copyIn_pLagGoal (s : State) (start : Word) (bs : List Byte) : (s.copyIn start bs).pLagGoal = s.pLagGoal := rfl
@[simp] theorem State.copyIn_cLagLeft (s : State) (start : Word) (bs : List Byte) : (s.copyIn start bs).cLagLeft = s.cLagLeft := rfl
@[simp] theorem State.copyIn_cLagGoal (s : State) (start : Word) (bs : List Byte) : (s.copyIn start bs).cLagGoal = s.cLagGoal := rfl
@[simp] theorem State.copyIn_ownReads (s : State) (start : Word) (bs : List Byte) : (s.copyIn start bs).ownReads = s.ownReads := rfl
@[simp] theorem State.copyIn_capacity (s : State) (start : Word) (bs : List Byte) : (s.copyIn start bs).capacity = s.capacity := rfl
@[simp] theorem State.copyIn_mask (s : State) (start : Word) (bs : List Byte) : (s.copyIn start bs).mask = s.mask := rfl

/-! ### take, port P -/

@[simp] theorem State.take_P_cfg (s : State) (rest : List Command) (gs : List Side) : (s.take .P rest gs).cfg = s.cfg := rfl
@[simp] theorem State.take_P_head (s : State) (rest : List Command) (gs : List Side) : (s.take .P rest gs).head = s.head := rfl
@[simp] theorem State.take_P_tail (s : State) (rest : List Command) (gs : List Side) : (s.take .P rest gs).tail = s.tail := rfl
@[simp] theorem State.take_P_wb (s : State) (rest : List Command) (gs : List Side) : (s.take .P rest gs).wb = s.wb := rfl
@[simp] theorem State.take_P_rb (s : State) (rest : List Command) (gs : List Side) : (s.take .P rest gs).rb = s.rb := rfl
@[simp] theorem State.take_P_pIntx (s : State) (rest : List Command) (gs : List Side) : (s.take .P rest gs).pIntx = s.pIntx := rfl
@[simp] theorem State.take_P_pPending (s : State) (rest : List Command) (gs : List Side) : (s.take .P rest gs).pPending = s.pPending := rfl
@[simp] theorem State.take_P_pTailSeen (s : State) (rest : List Command) (gs : List Side) : (s.take .P rest gs).pTailSeen = s.pTailSeen := rfl
@[simp] theorem State.take_P_cIntx (s : State) (rest : List Command) (gs : List Side) : (s.take .P rest gs).cIntx = s.cIntx := rfl
@[simp] theorem State.take_P_cPending (s : State) (rest : List Command) (gs : List Side) : (s.take .P rest gs).cPending = s.cPending := rfl
@[simp] theorem State.take_P_cHeadSeen (s : State) (rest : List Command) (gs : List Side) : (s.take .P rest gs).cHeadSeen = s.cHeadSeen := rfl
@[simp] theorem State.take_P_fault (s : State) (rest : List Command) (gs : List Side) : (s.take .P rest gs).fault = s.fault := rfl
@[simp] theorem State.take_P_ram (s : State) (rest : List Command) (gs : List Side) : (s.take .P rest gs).ram = s.ram := rfl
@[simp] theorem State.take_P_pQueue (s : State) (rest : List Command) (gs : List Side) : (s.take .P rest gs).pQueue = rest := rfl
@[simp] theorem State.take_P_cQueue (s : State) (rest : List Command) (gs : List Side) : (s.take .P rest gs).cQueue = s.cQueue := rfl
@[simp] theorem State.take_P_grants (s : State) (rest : List Command) (gs : List Side) : (s.take .P rest gs).grants = gs := rfl
@[simp] theorem State.take_P_resetIn (s : State) (rest : List Command) (gs : List Side) : (s.take .P rest gs).resetIn = s.resetIn := rfl
@[simp] theorem State.take_P_responses (s : State) (rest : List Command) (gs : List Side) : (s.take .P rest gs).responses = s.responses := rfl
@[simp] theorem State.take_P_tick (s : State) (rest : List Command) (gs : List Side) : (s.take .P rest gs).tick = s.tick + 1 := rfl
@[simp] theorem State.take_P_pLagLeft (s : State) (rest : List Command) (gs : List Side) : (s.take .P rest gs).pLagLeft = s.pLagLeft := rfl
@[simp] theorem State.take_P_pLagGoal (s : State) (rest : List Command) (gs : List Side) : (s.take .P rest gs).pLagGoal = s.pLagGoal := rfl
@[simp] theorem State.take_P_cLagLeft (s : State) (rest : List Command) (gs : List Side) : (s.take .P rest gs).cLagLeft = s.cLagLeft := rfl
@[simp] theorem State.take_P_cLagGoal (s : State) (rest : List Command) (gs : List Side) : (s.take .P rest gs).cLagGoal = s.cLagGoal := rfl
@[simp] theorem State.take_P_ownReads (s : State) (rest : List Command) (gs : List Side) : (s.take .P rest gs).ownReads = s.ownReads := rfl
@[simp] theorem State.take_P_capacity (s : State) (rest : List Command) (gs : List Side) : (s.take .P rest gs).capacity = s.capacity := rfl
@[simp] theorem State.take_P_mask (s : State) (rest : List Command) (gs : List Side) : (s.take .P rest gs).mask = s.mask := rfl

/-! ### take, port C -/

@[simp] theorem State.take_C_cfg (s : State) (rest : List Command) (gs : List Side) : (s.take .C rest gs).cfg = s.cfg := rfl
@[simp] theorem State.take_C_head (s : State) (rest : List Command) (gs : List Side) : (s.take .C rest gs).head = s.head := rfl
@[simp] theorem State.take_C_tail (s : State) (rest : List Command) (gs : List Side) : (s.take .C rest gs).tail = s.tail := rfl
@[simp] theorem State.take_C_wb (s : State) (rest : List Command) (gs : List Side) : (s.take .C rest gs).wb = s.wb := rfl
@[simp] theorem State.take_C_rb (s : State) (rest : List Command) (gs : List Side) : (s.take .C rest gs).rb = s.rb := rfl
@[simp] theorem State.take_C_pIntx (s : State) (rest : List Command) (gs : List Side) : (s.take .C rest gs).pIntx = s.pIntx := rfl
@[simp] theorem State.take_C_pPending (s : State) (rest : List Command) (gs : List Side) : (s.take .C rest gs).pPending = s.pPending := rfl
@[simp] theorem State.take_C_pTailSeen (s : State) (rest : List Command) (gs : List Side) : (s.take .C rest gs).pTailSeen = s.pTailSeen := rfl
@[simp] theorem State.take_C_cIntx (s : State) (rest : List Command) (gs : List Side) : (s.take .C rest gs).cIntx = s.cIntx := rfl
@[simp] theorem State.take_C_cPending (s : State) (rest : List Command) (gs : List Side) : (s.take .C rest gs).cPending = s.cPending := rfl
@[simp] theorem State.take_C_cHeadSeen (s : State) (rest : List Command) (gs : List Side) : (s.take .C rest gs).cHeadSeen = s.cHeadSeen := rfl
@[simp] theorem State.take_C_fault (s : State) (rest : List Command) (gs : List Side) : (s.take .C rest gs).fault = s.fault := rfl
@[simp] theorem State.take_C_ram (s : State) (rest : List Command) (gs : List Side) : (s.take .C rest gs).ram = s.ram := rfl
@[simp] theorem State.take_C_pQueue (s : State) (rest : List Command) (gs : List Side) : (s.take .C rest gs).pQueue = s.pQueue := rfl
@[simp] theorem State.take_C_cQueue (s : State) (rest : List Command) (gs : List Side) : (s.take .C rest gs).cQueue = rest := rfl
@[simp] theorem State.take_C_grants (s : State) (rest : List Command) (gs : List Side) : (s.take .C rest gs).grants = gs := rfl
@[simp] theorem State.take_C_resetIn (s : State) (rest : List Command) (gs : List Side) : (s.take .C rest gs).resetIn = s.resetIn := rfl
@[simp] theorem State.take_C_responses (s : State) (rest : List Command) (gs : List Side) : (s.take .C rest gs).responses = s.responses := rfl
@[simp] theorem State.take_C_tick (s : State) (rest : List Command) (gs : List Side) : (s.take .C rest gs).tick = s.tick + 1 := rfl
@[simp] theorem State.take_C_pLagLeft (s : State) (rest : List Command) (gs : List Side) : (s.take .C rest gs).pLagLeft = s.pLagLeft := rfl
@[simp] theorem State.take_C_pLagGoal (s : State) (rest : List Command) (gs : List Side) : (s.take .C rest gs).pLagGoal = s.pLagGoal := rfl
@[simp] theorem State.take_C_cLagLeft (s : State) (rest : List Command) (gs : List Side) : (s.take .C rest gs).cLagLeft = s.cLagLeft := rfl
@[simp] theorem State.take_C_cLagGoal (s : State) (rest : List Command) (gs : List Side) : (s.take .C rest gs).cLagGoal = s.cLagGoal := rfl
@[simp] theorem State.take_C_ownReads (s : State) (rest : List Command) (gs : List Side) : (s.take .C rest gs).ownReads = s.ownReads := rfl
@[simp] theorem State.take_C_capacity (s : State) (rest : List Command) (gs : List Side) : (s.take .C rest gs).capacity = s.capacity := rfl
@[simp] theorem State.take_C_mask (s : State) (rest : List Command) (gs : List Side) : (s.take .C rest gs).mask = s.mask := rfl

/-! ### The accessors of a side -/

@[simp] theorem State.own_P (s : State) : s.own .P = s.head := rfl
@[simp] theorem State.own_C (s : State) : s.own .C = s.tail := rfl
@[simp] theorem State.peer_P (s : State) : s.peer .P = s.tail := rfl
@[simp] theorem State.peer_C (s : State) : s.peer .C = s.head := rfl
@[simp] theorem State.inTx_P (s : State) : s.inTx .P = s.pIntx := rfl
@[simp] theorem State.inTx_C (s : State) : s.inTx .C = s.cIntx := rfl
@[simp] theorem State.pending_P (s : State) : s.pending .P = s.pPending := rfl
@[simp] theorem State.pending_C (s : State) : s.pending .C = s.cPending := rfl
@[simp] theorem State.seen_P (s : State) : s.seen .P = s.pTailSeen := rfl
@[simp] theorem State.seen_C (s : State) : s.seen .C = s.cHeadSeen := rfl
@[simp] theorem State.guard_P (s : State) : s.guard .P = s.wb := rfl
@[simp] theorem State.guard_C (s : State) : s.guard .C = s.rb := rfl
@[simp] theorem State.lagLeft_P (s : State) : s.lagLeft .P = s.pLagLeft := rfl
@[simp] theorem State.lagLeft_C (s : State) : s.lagLeft .C = s.cLagLeft := rfl
@[simp] theorem State.lagGoal_P (s : State) : s.lagGoal .P = s.pLagGoal := rfl
@[simp] theorem State.lagGoal_C (s : State) : s.lagGoal .C = s.cLagGoal := rfl

/-! ### A failing command (spec/60_exceptions.md R223) -/

@[simp] theorem State.fail_none (s : State) (sd : Side) (st : Status) :
    s.fail sd st none = s.respond sd (.failure st) := rfl

@[simp] theorem State.fail_some (s : State) (sd : Side) (st : Status) (m : Misuse) :
    s.fail sd st (some m) = (s.stickyFault sd m).respond sd (.failure st) := rfl

/-! ### What the checks let through -/

theorem State.withTx_open (s : State) (sd : Side) (k : State) (h : s.inTx sd = true) : s.withTx sd k = k := by
  simp [State.withTx, h]

theorem State.withTx_idle (s : State) (sd : Side) (k : State) (h : s.inTx sd = false) :
    s.withTx sd k = s.fail sd .noTransaction (some .noTx) := by
  simp [State.withTx, h]

theorem State.withPayload_fits (s : State) (sd : Side) (size : Word) (payload : List Byte) (k : State)
    (h : payload.length = size.toNat) : s.withPayload sd size payload k = k := by
  simp [State.withPayload, payloadFits, h]

theorem State.withPayload_wrong (s : State) (sd : Side) (size : Word) (payload : List Byte) (k : State)
    (h : payload.length ≠ size.toNat) : s.withPayload sd size payload k = s.fail sd .invalidArgument none := by
  simp [State.withPayload, payloadFits, h]

theorem State.withOffset_legal (s : State) (sd : Side) (o : Word) (k : State) (h : o < s.capacity) :
    s.withOffset sd o k = k := by
  simp [State.withOffset, BitVec.not_le.mpr h]

theorem State.withOffset_illegal (s : State) (sd : Side) (o : Word) (k : State) (h : s.capacity ≤ o) :
    s.withOffset sd o k = s.fail sd .invalidArgument none := by
  simp [State.withOffset, h]

theorem State.withIdle_idle (s : State) (sd : Side) (k : State) (h : s.inTx sd = false) (hg : s.guard sd = false) :
    s.withIdle sd k = k := by
  simp [State.withIdle, h, hg]

end Sys2Proof.Machine
end

