-- ==== Sys2Proof/Laws/Datapath.lean ====
section
/-! SUPPORT. The build constants and the mask as natural numbers, and what each shared operation can answer. -/

namespace Sys2Proof.Machine

/-! ### The build constants (spec/10_state.md R22) -/

theorem State.capLog2_lt (s : State) : s.cfg.capLog2.val < 64 := s.cfg.capLog2.isLt

theorem State.two_pow_le (s : State) : 2 ^ s.cfg.capLog2.val ≤ 2 ^ 63 :=
  Nat.pow_le_pow_right (by omega) (by have := s.capLog2_lt; omega)

theorem State.two_pow_pos (s : State) : 0 < 2 ^ s.cfg.capLog2.val := Nat.two_pow_pos _

/-- `CAPACITY` as a number. -/
theorem State.capacity_toNat (s : State) : s.capacity.toNat = 2 ^ s.cfg.capLog2.val := by
  have := s.two_pow_le
  simp only [State.capacity, BitVec.toNat_ofNat]
  exact Nat.mod_eq_of_lt (by omega)

/-- `MASK` as a number. -/
theorem State.mask_toNat (s : State) : s.mask.toNat = 2 ^ s.cfg.capLog2.val - 1 := by
  have h := s.capacity_toNat
  have hle := s.two_pow_le
  have hpos := s.two_pow_pos
  have one : (1 : Word).toNat = 1 := rfl
  rw [State.mask, BitVec.toNat_sub, h, one]
  omega

/-- `x & MASK` is `x mod CAPACITY` (spec/00_scope.md R15). -/
theorem State.and_mask_toNat (s : State) (x : Word) : (x &&& s.mask).toNat = x.toNat % 2 ^ s.cfg.capLog2.val := by
  rw [BitVec.toNat_and, s.mask_toNat, Nat.and_two_pow_sub_one_eq_mod]

/-- A masked value is an existing offset (R53). -/
theorem State.and_mask_lt (s : State) (x : Word) : (x &&& s.mask).toNat < s.capacity.toNat := by
  rw [s.and_mask_toNat, s.capacity_toNat]
  exact Nat.mod_lt _ s.two_pow_pos

/-- `CAPACITY` divides `2^64` (spec/41_datapath.md R122), so a 64-bit wrap does not change an offset. -/
theorem State.two_pow_dvd (s : State) : 2 ^ s.cfg.capLog2.val ∣ 2 ^ 64 :=
  Nat.pow_dvd_pow 2 (by have := s.capLog2_lt; omega)

/-- The offset of a sum of two 64-bit values is the sum modulo `CAPACITY` (R122). -/
theorem State.add_and_mask_toNat (s : State) (x y : Word) :
    ((x + y) &&& s.mask).toNat = (x.toNat + y.toNat) % 2 ^ s.cfg.capLog2.val := by
  rw [s.and_mask_toNat, BitVec.toNat_add, Nat.mod_mod_of_dvd _ s.two_pow_dvd]

/-- `SegAddr(start, i)` as a number (R127). -/
theorem State.segAddr_toNat (s : State) (start : Word) (i : Nat) :
    (s.segAddr start i).toNat = (start.toNat + i) % 2 ^ s.cfg.capLog2.val := by
  rw [State.segAddr, s.add_and_mask_toNat, BitVec.toNat_ofNat, Nat.add_mod, Nat.mod_mod_of_dvd _ s.two_pow_dvd,
    ← Nat.add_mod]

/-- The operations of the address generator see of a state only its build parameters. -/
theorem State.segAddr_congr (s s' : State) (h : s.cfg = s'.cfg) : s.segAddr = s'.segAddr := by
  funext start i
  simp [State.segAddr, State.mask, State.capacity, h]

/-- The copy of a write command lists existing offsets only. -/
theorem State.within_writeWindow (s : State) (start : Word) (bs : List Byte) (i : Nat) (m : Memory)
    (h : m.within s.capacity.toNat = true) : (s.writeWindow start i bs m).within s.capacity.toNat = true := by
  induction bs generalizing i m with
  | nil => exact h
  | cons b bs ih => exact ih _ _ (Memory.within_write m _ _ b h (s.and_mask_lt _))

/-! ### What the shared operations answer -/

/-- `BeginGuard` succeeds exactly when the guard is free, and then sets it (spec/40_header.md R101, R103). -/
theorem State.beginGuard_cases (s : State) (sd : Side) :
    (s.guard sd = true ∧ s.beginGuard sd = none) ∨
      (s.guard sd = false ∧ s.beginGuard sd = some (s.setGuard sd true)) := by
  cases h : s.guard sd <;> simp [State.beginGuard, h]

/-- Everything `AccessCore` can answer (spec/41_datapath.md R134). -/
theorem State.accessCore_cases (s : State) (sd : Side) (size : Word) (ap : Bool) :
    (s.arithBad sd (s.readPeer sd) = true ∧
        s.accessCore sd size ap = ⟨.invalidArgument, 0, [], s.stickyFault sd .arith⟩) ∨
      (s.arithBad sd (s.readPeer sd) = false ∧ ap = false ∧ s.avail sd (s.readPeer sd) < size ∧
        s.accessCore sd size ap = ⟨.outOfSpace, 0, [], s⟩) ∨
      (s.arithBad sd (s.readPeer sd) = false ∧ (ap = false → size ≤ s.avail sd (s.readPeer sd)) ∧
        (size = 0 ∨ s.avail sd (s.readPeer sd) = 0) ∧ s.accessCore sd size ap = ⟨.ok, 0, [], s⟩) ∨
      (s.arithBad sd (s.readPeer sd) = false ∧ (ap = false → size ≤ s.avail sd (s.readPeer sd)) ∧
        size ≠ 0 ∧ s.avail sd (s.readPeer sd) ≠ 0 ∧
        s.accessCore sd size ap =
          ⟨.ok, minWord size (s.avail sd (s.readPeer sd)),
            s.geometry (s.start sd) (minWord size (s.avail sd (s.readPeer sd))),
            (s.setPending sd (s.pending sd + minWord size (s.avail sd (s.readPeer sd)))).setSeen sd
              (s.readPeer sd)⟩) := by
  cases hb : s.arithBad sd (s.readPeer sd) with
  | true => simp [State.accessCore, hb]
  | false =>
    by_cases h₁ : ap = false ∧ s.avail sd (s.readPeer sd) < size
    · exact .inr (.inl ⟨rfl, h₁.1, h₁.2, by simp [State.accessCore, hb, h₁]⟩)
    · have hle : ap = false → size ≤ s.avail sd (s.readPeer sd) := fun ha => by
        simpa [ha, BitVec.not_lt] using h₁
      by_cases h₂ : size = 0 ∨ s.avail sd (s.readPeer sd) = 0
      · exact .inr (.inr (.inl ⟨rfl, hle, h₂, by simp only [State.accessCore, hb, if_neg h₁, if_pos h₂]; rfl⟩))
      · refine .inr (.inr (.inr ⟨rfl, hle, fun h => h₂ (.inl h), fun h => h₂ (.inr h), ?_⟩))
        simp only [State.accessCore, hb, if_neg h₁, if_neg h₂]
        rfl

end Sys2Proof.Machine
end

