-- ==== Sys2Proof/Laws/PerInstr.lean ====
section
/-! SUPPORT. The statement family RowMatch, per command: its encoded word, on its own port, matches the row of the opcode
map that bears its mnemonic (spec/30_encoding.md R85, R88). -/

namespace Sys2Proof.Laws.RowMatch

/-- The encoding of a command matches its own row of the opcode map (R88). -/
def Statement (i : Instr) : Prop :=
  ∃ r ∈ opcodeMap, r.mnemonic = i.mnemonic ∧ r.matches i.side (encode i).word = true

theorem pNop : Statement .pNop :=
  ⟨⟨"P.NOP", .P, 0x00000000, 0xFFFFFFFF⟩, by simp [opcodeMap], rfl, rfl⟩

theorem cNop : Statement .cNop :=
  ⟨⟨"C.NOP", .C, 0x00000080, 0xFFFFFFFF⟩, by simp [opcodeMap], rfl, rfl⟩

theorem pStart : Statement .pStart :=
  ⟨⟨"P.START", .P, 0x00000001, 0xFFFFFFFF⟩, by simp [opcodeMap], rfl, rfl⟩

theorem pAccess (v : Word) : Statement (.pAccess v) :=
  ⟨⟨"P.ACCESS", .P, 0x00000002, 0xFFFFFFFF⟩, by simp [opcodeMap], rfl, by simp [OpcodeRow.matches, encode, encodeWord, Instr.side]⟩

theorem pAccessPart (v : Word) : Statement (.pAccessPart v) :=
  ⟨⟨"P.ACCESS.PART", .P, 0x00000012, 0xFFFFFFFF⟩, by simp [opcodeMap], rfl, by simp [OpcodeRow.matches, encode, encodeWord, Instr.side]⟩

theorem pCommit : Statement .pCommit :=
  ⟨⟨"P.COMMIT", .P, 0x00000003, 0xFFFFFFFF⟩, by simp [opcodeMap], rfl, rfl⟩

theorem pCancel : Statement .pCancel :=
  ⟨⟨"P.CANCEL", .P, 0x00000004, 0xFFFFFFFF⟩, by simp [opcodeMap], rfl, rfl⟩

theorem pWrite (size : Word) (payload : List Byte) : Statement (.pWrite size payload) :=
  ⟨⟨"P.WRITE", .P, 0x00000005, 0xFFFFFFFF⟩, by simp [opcodeMap], rfl, by simp [OpcodeRow.matches, encode, encodeWord, Instr.side]⟩

theorem pWritePart (size : Word) (payload : List Byte) : Statement (.pWritePart size payload) :=
  ⟨⟨"P.WRITE.PART", .P, 0x00000015, 0xFFFFFFFF⟩, by simp [opcodeMap], rfl, by simp [OpcodeRow.matches, encode, encodeWord, Instr.side]⟩

theorem pWriteAtomic (size : Word) (payload : List Byte) : Statement (.pWriteAtomic size payload) :=
  ⟨⟨"P.WRITE.ATOMIC", .P, 0x00000006, 0xFFFFFFFF⟩, by simp [opcodeMap], rfl, by simp [OpcodeRow.matches, encode, encodeWord, Instr.side]⟩

theorem pDwrite (o : Word) (b : Byte) : Statement (.pDwrite o b) :=
  ⟨⟨"P.DWRITE", .P, 0x00000008, 0xFFFFFFFF⟩, by simp [opcodeMap], rfl, by simp [OpcodeRow.matches, encode, encodeWord, Instr.side]⟩

theorem cStart : Statement .cStart :=
  ⟨⟨"C.START", .C, 0x00000081, 0xFFFFFFFF⟩, by simp [opcodeMap], rfl, rfl⟩

theorem cAccess (v : Word) : Statement (.cAccess v) :=
  ⟨⟨"C.ACCESS", .C, 0x00000082, 0xFFFFFFFF⟩, by simp [opcodeMap], rfl, by simp [OpcodeRow.matches, encode, encodeWord, Instr.side]⟩

theorem cAccessPart (v : Word) : Statement (.cAccessPart v) :=
  ⟨⟨"C.ACCESS.PART", .C, 0x00000092, 0xFFFFFFFF⟩, by simp [opcodeMap], rfl, by simp [OpcodeRow.matches, encode, encodeWord, Instr.side]⟩

theorem cCommit : Statement .cCommit :=
  ⟨⟨"C.COMMIT", .C, 0x00000083, 0xFFFFFFFF⟩, by simp [opcodeMap], rfl, rfl⟩

theorem cCancel : Statement .cCancel :=
  ⟨⟨"C.CANCEL", .C, 0x00000084, 0xFFFFFFFF⟩, by simp [opcodeMap], rfl, rfl⟩

theorem cRead (v : Word) : Statement (.cRead v) :=
  ⟨⟨"C.READ", .C, 0x00000085, 0xFFFFFFFF⟩, by simp [opcodeMap], rfl, by simp [OpcodeRow.matches, encode, encodeWord, Instr.side]⟩

theorem cReadPart (v : Word) : Statement (.cReadPart v) :=
  ⟨⟨"C.READ.PART", .C, 0x00000095, 0xFFFFFFFF⟩, by simp [opcodeMap], rfl, by simp [OpcodeRow.matches, encode, encodeWord, Instr.side]⟩

theorem cReadAtomic (v : Word) : Statement (.cReadAtomic v) :=
  ⟨⟨"C.READ.ATOMIC", .C, 0x00000086, 0xFFFFFFFF⟩, by simp [opcodeMap], rfl, by simp [OpcodeRow.matches, encode, encodeWord, Instr.side]⟩

theorem cDread (v : Word) : Statement (.cDread v) :=
  ⟨⟨"C.DREAD", .C, 0x00000089, 0xFFFFFFFF⟩, by simp [opcodeMap], rfl, by simp [OpcodeRow.matches, encode, encodeWord, Instr.side]⟩

theorem pRdreg (reg : BitVec 8) : Statement (.pRdreg reg) :=
  ⟨⟨"P.RDREG", .P, 0x00000007, 0xFFFF00FF⟩, by simp [opcodeMap], rfl, by revert reg; decide⟩

theorem cRdreg (reg : BitVec 8) : Statement (.cRdreg reg) :=
  ⟨⟨"C.RDREG", .C, 0x00000087, 0xFFFF00FF⟩, by simp [opcodeMap], rfl, by revert reg; decide⟩

theorem pProbe (v : Word) : Statement (.pProbe v) :=
  ⟨⟨"P.PROBE", .P, 0x0000000A, 0xFFFFFFFF⟩, by simp [opcodeMap], rfl, by simp [OpcodeRow.matches, encode, encodeWord, Instr.side]⟩

theorem cProbe (v : Word) : Statement (.cProbe v) :=
  ⟨⟨"C.PROBE", .C, 0x0000008A, 0xFFFFFFFF⟩, by simp [opcodeMap], rfl, by simp [OpcodeRow.matches, encode, encodeWord, Instr.side]⟩

end Sys2Proof.Laws.RowMatch
end

