-- ==== Sys2Proof/Laws/Step.lean ====
section
/-! SUPPORT. Everything taking a command, and one step, can do (spec/20_memory.md R60; spec/70_reset_and_hazards.md
R251). -/

namespace Sys2Proof.Machine

/-- Planning a peer read changes the plan of that side's reads only. -/
theorem State.planRead_cases (s : State) (port : Side) (c : Command) :
    ∃ left goal, s.planRead port c = s.setLag port left goal := by
  have same : ∃ left goal, s = s.setLag port left goal := ⟨_, _, (s.setLag_self port).symm⟩
  unfold State.planRead
  split
  · split
    · unfold State.planLag
      split <;> exact ⟨_, _, rfl⟩
    · exact same
  · exact same
  · exact same

/-- The command taken is the oldest of its port, and only that port's queue, the grants, the draw index and the plan of
that side's peer reads change. -/
theorem State.fetch_cases (s : State) (f : Fetched) (h : s.fetch = some f) :
    (∃ rest gs, f.port = .P ∧ s.pQueue = f.cmd :: rest ∧ f.after = (s.take .P rest gs).planRead .P f.cmd) ∨
      (∃ rest gs, f.port = .C ∧ s.cQueue = f.cmd :: rest ∧ f.after = (s.take .C rest gs).planRead .C f.cmd) := by
  rcases hp : s.pQueue with _ | ⟨p, ps⟩ <;> rcases hc : s.cQueue with _ | ⟨c, cs⟩ <;>
    simp only [State.fetch, hp, hc] at h
  · cases h
  · cases h; exact .inr ⟨cs, _, rfl, rfl, rfl⟩
  · cases h; exact .inl ⟨ps, _, rfl, rfl, rfl⟩
  · rcases hpl : s.plan with ⟨_ | _, gs⟩ <;> simp only [hpl] at h <;> cases h
    · exact .inl ⟨ps, gs, rfl, rfl, rfl⟩
    · exact .inr ⟨cs, gs, rfl, rfl, rfl⟩

/-- A command is taken exactly when some port has one waiting. -/
theorem State.fetch_none (s : State) : s.fetch = none ↔ s.pQueue = [] ∧ s.cQueue = [] := by
  rcases hp : s.pQueue with _ | ⟨p, ps⟩ <;> rcases hc : s.cQueue with _ | ⟨c, cs⟩ <;>
    simp only [State.fetch, hp, hc] <;> try simp
  rcases s.plan with ⟨_ | _, gs⟩ <;> simp

/-- A `LAGGED` read observes a value from its floor to the peer's counter, and the floor is the snapshot or the goal
ahead of it (spec/40_header.md R104). -/
theorem State.lagFloor_cases (s : State) (sd : Side) :
    (s.lagLeft sd = 0 ∧ s.lagGoal sd - s.seen sd ≤ s.peer sd - s.seen sd ∧ s.lagFloor sd = s.lagGoal sd) ∨
      s.lagFloor sd = s.seen sd := by
  unfold State.lagFloor
  split
  · exact .inl ⟨‹_ ∧ _›.1, ‹_ ∧ _›.2, rfl⟩
  · exact .inr rfl

/-- The distance of a draw from its floor is at most that of the peer's counter (R104). -/
theorem laggedDraw_le (floor peer : Word) (choice : Nat) : laggedDraw floor peer choice - floor ≤ peer - floor := by
  have lt : choice % ((peer - floor).toNat + 1) < (peer - floor).toNat + 1 := Nat.mod_lt _ (Nat.succ_pos _)
  have bound := (peer - floor).isLt
  rw [laggedDraw, BitVec.add_comm, BitVec.add_sub_cancel, BitVec.le_def, BitVec.toNat_ofNat,
    Nat.mod_eq_of_lt (by omega)]
  omega

/-- Everything one step can do. -/
theorem step_cases (s : State) :
    (s.resetIn = true ∧ step s = .next s.applyReset) ∨
      (s.resetIn = false ∧ s.fetch = none ∧ step s = .next s) ∨
      (∃ f i, s.resetIn = false ∧ s.fetch = some f ∧ decode f.port f.cmd = .instr i ∧ step s = exec i f.after) ∨
      (∃ f why, s.resetIn = false ∧ s.fetch = some f ∧ decode f.port f.cmd = .malformed why ∧
        step s = .next (f.after.fail f.port .invalidArgument none)) := by
  cases hr : s.resetIn with
  | true => exact .inl ⟨rfl, by simp [step, hr]⟩
  | false =>
    cases hf : s.fetch with
    | none => exact .inr (.inl ⟨rfl, rfl, by simp [step, hr, hf]⟩)
    | some f =>
      cases hd : decode f.port f.cmd with
      | instr i => exact .inr (.inr (.inl ⟨f, i, rfl, rfl, hd, by simp [step, hr, hf, hd]⟩))
      | malformed why => exact .inr (.inr (.inr ⟨f, why, rfl, rfl, hd, by simp [step, hr, hf, hd]⟩))

end Sys2Proof.Machine
end

