-- ==== Sys2Proof/Tests/Slice0.lean ====
section
/-! SUPPORT. Tests of single steps against the vectors of spec/95_test_vectors.md (each test names its vector), words written
out from the spec's encoding, ill-formed terms, and the witnesses of the statements' hypotheses. -/

namespace Sys2Proof.Tests

open Sys2Proof Sys2Proof.Machine

/-! ### Helpers -/

/-- The worked examples' block (`CAPACITY = 8`, `CURRENT`) with given counters, snapshots at the peer counters. -/
def at_ (head tail : Word) : State :=
  { State.reset with head := head, tail := tail, pTailSeen := tail, cHeadSeen := head }

/-- The producer's transaction open with `n` bytes pending. -/
def pOpen (s : State) (n : Word) : State := { s with pIntx := true, wb := true, pPending := n }

/-- The consumer's transaction open with `n` bytes pending. -/
def cOpen (s : State) (n : Word) : State := { s with cIntx := true, rb := true, cPending := n }

/-- The state after a command. -/
def after (i : Instr) (s : State) : State :=
  match exec i s with
  | .next t => t
  | .fault _ => s
  | .refused _ => s

/-- The last response after a command. -/
def said (i : Instr) (s : State) : Option (Side × Response) := (after i s).responses.getLast?

/-- The state after a step. -/
def stepped (s : State) : State :=
  match step s with
  | .next t => t
  | .fault _ => s
  | .refused _ => s

/-- The response of an accepted command with a count and segments. -/
def okN (n : Nat) (segs : List (Nat × Nat)) : Response := Spec.response .ok n segs 0 []

/-- The response of a failing command. -/
def bad (st : Status) : Response := Spec.response st 0 [] 0 []

/-! ### Well-formedness: an ill-formed term for each check (spec/30_encoding.md R77) -/

theorem test_wellFormed_write : (Instr.pWrite 2 [0x01]).wellFormed = false := by decide
theorem test_wellFormed_writePart : (Instr.pWritePart 0 [0x01]).wellFormed = false := by decide
theorem test_wellFormed_writeAtomic : (Instr.pWriteAtomic 1 [0x01, 0x02]).wellFormed = false := by decide
theorem test_wellFormed_good : (Instr.pWrite 2 [0x01, 0x02]).wellFormed = true := by decide

/-! ### Decoding: one word per row, written out from R71 and R88 as RES1, REG, SIDE, RES0, AP, OP -/

theorem test_decode_producer_words :
    decode .P ⟨0b0000000000000000_00000000_0_00_0_0001, 0, 0, []⟩ = .instr .pStart ∧
      decode .P ⟨0b0000000000000000_00000000_0_00_0_0010, 4, 0, []⟩ = .instr (.pAccess 4) ∧
      decode .P ⟨0b0000000000000000_00000000_0_00_1_0010, 9, 0, []⟩ = .instr (.pAccessPart 9) ∧
      decode .P ⟨0b0000000000000000_00000000_0_00_0_0011, 0, 0, []⟩ = .instr .pCommit ∧
      decode .P ⟨0b0000000000000000_00000000_0_00_0_0100, 0, 0, []⟩ = .instr .pCancel ∧
      decode .P ⟨0b0000000000000000_00000000_0_00_0_0101, 1, 0, [0xAA]⟩ = .instr (.pWrite 1 [0xAA]) ∧
      decode .P ⟨0b0000000000000000_00000000_0_00_1_0101, 1, 0, [0xAA]⟩ = .instr (.pWritePart 1 [0xAA]) ∧
      decode .P ⟨0b0000000000000000_00000000_0_00_0_0110, 1, 0, [0xAA]⟩ = .instr (.pWriteAtomic 1 [0xAA]) ∧
      decode .P ⟨0b0000000000000000_00000000_0_00_0_1000, 2, 0x41, []⟩ = .instr (.pDwrite 2 0x41) := by decide

theorem test_decode_consumer_words :
    decode .C ⟨0b0000000000000000_00000000_1_00_0_0001, 0, 0, []⟩ = .instr .cStart ∧
      decode .C ⟨0b0000000000000000_00000000_1_00_0_0010, 4, 0, []⟩ = .instr (.cAccess 4) ∧
      decode .C ⟨0b0000000000000000_00000000_1_00_1_0010, 9, 0, []⟩ = .instr (.cAccessPart 9) ∧
      decode .C ⟨0b0000000000000000_00000000_1_00_0_0011, 0, 0, []⟩ = .instr .cCommit ∧
      decode .C ⟨0b0000000000000000_00000000_1_00_0_0100, 0, 0, []⟩ = .instr .cCancel ∧
      decode .C ⟨0b0000000000000000_00000000_1_00_0_0101, 1, 0, []⟩ = .instr (.cRead 1) ∧
      decode .C ⟨0b0000000000000000_00000000_1_00_1_0101, 1, 0, []⟩ = .instr (.cReadPart 1) ∧
      decode .C ⟨0b0000000000000000_00000000_1_00_0_0110, 1, 0, []⟩ = .instr (.cReadAtomic 1) ∧
      decode .C ⟨0b0000000000000000_00000000_1_00_0_1001, 2, 0, []⟩ = .instr (.cDread 2) := by decide

theorem test_decode_status_words :
    decode .P ⟨0b0000000000000000_00000000_0_00_0_0000, 0, 0, []⟩ = .instr .pNop ∧
      decode .C ⟨0b0000000000000000_00000000_1_00_0_0000, 0, 0, []⟩ = .instr .cNop ∧
      decode .P ⟨0b0000000000000000_00000101_0_00_0_0111, 0, 0, []⟩ = .instr (.pRdreg 0x05) ∧
      decode .C ⟨0b0000000000000000_00001011_1_00_0_0111, 0, 0, []⟩ = .instr (.cRdreg 0x0B) ∧
      decode .P ⟨0b0000000000000000_00000000_0_00_0_1010, 3, 0, []⟩ = .instr (.pProbe 3) ∧
      decode .C ⟨0b0000000000000000_00000000_1_00_0_1010, 3, 0, []⟩ = .instr (.cProbe 3) := by decide

/-- 95 section 2.7, the malformed rows. -/
theorem test_decode_malformed :
    decode .P ⟨0x00000080, 0, 0, []⟩ = .malformed .wrongSide ∧
      decode .C ⟨0x00000088, 0, 0, []⟩ = .malformed .writeByteOnConsumer ∧
      decode .P ⟨0x00000009, 0, 0, []⟩ = .malformed .readByteOnProducer ∧
      decode .P ⟨0x00000017, 0, 0, []⟩ = .malformed .strayPartial ∧
      decode .P ⟨0x00000102, 0, 0, []⟩ = .malformed .strayReg ∧
      decode .P ⟨0x0000000B, 0, 0, []⟩ = .malformed .reservedOp ∧
      decode .P ⟨0x00010001, 0, 0, []⟩ = .malformed .reservedBits ∧
      decode .P ⟨0x00000021, 0, 0, []⟩ = .malformed .reservedBits := by decide

/-- A table word placed after reset is the command the next step runs, on the port its SIDE bit names. -/
theorem test_withFetchWord_runs :
    (stepped (State.reset.withFetchWord 32 0x00000001)).pIntx = true ∧
      (stepped (State.reset.withFetchWord 32 0x00000081)).cIntx = true ∧
      decodeTableWord 32 0x00000507 = some (.pRdreg 0x05) ∧
      (stepped (State.reset.withFetchWord 32 0x00000507)).responses =
        [(.P, Spec.response .ok 0 [] 8 [])] := by decide

/-- P12: a payload of the wrong length is malformed: `InvalidArgument`, no fault. -/
theorem test_step_malformed_payload :
    (stepped (State.issue (pOpen (at_ 0 0) 0) .P ⟨0x5, 2, 0, [0x01]⟩)).responses = [(.P, bad .invalidArgument)] ∧
      (stepped (State.issue (pOpen (at_ 0 0) 0) .P ⟨0x5, 2, 0, [0x01]⟩)).fault = 0 := by decide

/-! ### Geometry (95 section 2.1) -/

theorem test_geometry :
    State.reset.geometry 7 2 = [⟨7, 1⟩, ⟨0, 1⟩] ∧ State.reset.geometry 4 4 = [⟨4, 4⟩] ∧
      State.reset.geometry 3 8 = [⟨3, 5⟩, ⟨0, 3⟩] ∧ State.reset.geometry 0 8 = [⟨0, 8⟩] := by decide

/-! ### No-operations, register reads, probes (95 sections 2.2, 2.3, 2.6) -/

theorem test_pNop : said .pNop (pOpen (at_ 6 2) 1) = some (.P, okN 0 []) := by decide
theorem test_cNop : said .cNop (at_ 6 2) = some (.C, okN 0 []) := by decide

/-- Section 2.2, last row: `HEAD = 2`, `TAIL = 2^64 - 2`: OCCUPIED reads 4. -/
theorem test_pRdreg_occupied_across_wrap :
    said (.pRdreg 0x04) (at_ 2 0xFFFFFFFFFFFFFFFE) = some (.P, Spec.response .ok 0 [] 4 []) := by decide
/-- Section 2.6: a reserved index. -/
theorem test_pRdreg_reserved : said (.pRdreg 0x10) State.reset = some (.P, bad .invalidArgument) := by decide
/-- Section 2.2, row 5: FLAGS reads 0x7C. -/
theorem test_cRdreg_flags :
    said (.cRdreg 0x06) (cOpen (pOpen (at_ 6 2) 3) 1) = some (.C, Spec.response .ok 0 [] 0x7C []) := by decide
/-- Section 2.2, row 5: C_AVAIL reads 3. -/
theorem test_cRdreg_avail :
    said (.cRdreg 0x0D) (cOpen (pOpen (at_ 6 2) 3) 1) = some (.C, Spec.response .ok 0 [] 3 []) := by decide
theorem test_pProbe_consumer_window :
    said (.pProbe 2) (cOpen (pOpen (at_ 6 2) 2) 1) = some (.P, Spec.response .ok 0 [] 0x9 []) := by decide
theorem test_pProbe_producer_window :
    said (.pProbe 6) (cOpen (pOpen (at_ 6 2) 2) 1) = some (.P, Spec.response .ok 0 [] 0x6 []) := by decide
theorem test_cProbe_outside :
    said (.cProbe 8) (cOpen (pOpen (at_ 6 2) 2) 1) = some (.C, bad .invalidArgument) := by decide
theorem test_cProbe_valid :
    said (.cProbe 3) (cOpen (pOpen (at_ 6 2) 2) 1) = some (.C, Spec.response .ok 0 [] 0x1 []) := by decide

/-! ### Producer (95 sections 1 and 2.4) -/

/-- V5: the second start is `Busy` and leaves the pending count. -/
theorem test_pStart_busy :
    said .pStart (pOpen (at_ 0 0) 3) = some (.P, bad .busy) ∧ (after .pStart (pOpen (at_ 0 0) 3)).fault = 0x1 ∧
      (after .pStart (pOpen (at_ 0 0) 3)).pPending = 3 := by decide
/-- V1: the wrapped access. -/
theorem test_pAccess_wraps :
    said (.pAccess 4) (pOpen (at_ 6 2) 0) = some (.P, okN 4 [(6, 2), (0, 2)]) ∧
      (after (.pAccess 4) (pOpen (at_ 6 2) 0)).pPending = 4 := by decide
/-- V4: a full buffer is `OutOfSpace` before it is an empty result. -/
theorem test_pAccess_full : said (.pAccess 1) (pOpen (at_ 8 0) 0) = some (.P, bad .outOfSpace) := by decide
/-- P6 and V4's contrast. -/
theorem test_pAccessPart :
    said (.pAccessPart 9) (pOpen (at_ 0 0) 0) = some (.P, okN 8 [(0, 8)]) ∧
      said (.pAccessPart 1) (pOpen (at_ 8 0) 0) = some (.P, okN 0 []) := by decide
/-- P11. -/
theorem test_pCommit :
    said .pCommit (pOpen (at_ 5 5) 6) = some (.P, okN 6 []) ∧ (after .pCommit (pOpen (at_ 5 5) 6)).head = 11 ∧
      (after .pCommit (pOpen (at_ 5 5) 6)).wb = false := by decide
/-- P1. -/
theorem test_pCommit_noTx :
    said .pCommit State.reset = some (.P, bad .noTransaction) ∧ (after .pCommit State.reset).fault = 0x2 := by decide
/-- V7, last line. -/
theorem test_pCancel :
    said .pCancel (pOpen (at_ 6 2) 4) = some (.P, okN 4 []) ∧ (after .pCancel (pOpen (at_ 6 2) 4)).head = 6 ∧
      (after .pCancel (pOpen (at_ 6 2) 4)).pIntx = false := by decide
/-- P24. -/
theorem test_pWrite_wraps :
    said (.pWrite 2 [0xAA, 0xBB]) (pOpen (at_ 7 7) 0) = some (.P, okN 2 [(7, 1), (0, 1)]) ∧
      (after (.pWrite 2 [0xAA, 0xBB]) (pOpen (at_ 7 7) 0)).ram = [(0, 0xBB), (7, 0xAA)] := by decide
/-- V2. -/
theorem test_pWrite_noRoom :
    said (.pWrite 4 [0, 0, 0, 0]) (pOpen (at_ 6 0) 0) = some (.P, bad .outOfSpace) ∧
      (after (.pWrite 4 [0, 0, 0, 0]) (pOpen (at_ 6 0) 0)).ram = [] := by decide
/-- P25. -/
theorem test_pWritePart :
    said (.pWritePart 5 [0x11, 0x22, 0x33, 0x44, 0x55]) (pOpen (at_ 6 0) 0) = some (.P, okN 2 [(6, 2)]) ∧
      (after (.pWritePart 5 [0x11, 0x22, 0x33, 0x44, 0x55]) (pOpen (at_ 6 0) 0)).ram = [(6, 0x11), (7, 0x22)] := by
  decide
/-- V6, first line: across the wrap. -/
theorem test_pWriteAtomic_wraps :
    said (.pWriteAtomic 5 [0x61, 0x62, 0x63, 0x64, 0x65]) (at_ 5 5) = some (.P, okN 5 []) ∧
      (after (.pWriteAtomic 5 [0x61, 0x62, 0x63, 0x64, 0x65]) (at_ 5 5)).head = 10 ∧
      (after (.pWriteAtomic 5 [0x61, 0x62, 0x63, 0x64, 0x65]) (at_ 5 5)).ram =
        [(0, 0x64), (1, 0x65), (5, 0x61), (6, 0x62), (7, 0x63)] := by decide
/-- P13. -/
theorem test_pWriteAtomic_busy :
    said (.pWriteAtomic 1 [0x01]) (pOpen (at_ 0 0) 3) = some (.P, bad .busy) ∧
      (after (.pWriteAtomic 1 [0x01]) (pOpen (at_ 0 0) 3)).fault = 0x1 := by decide
/-- P20. -/
theorem test_pDwrite :
    said (.pDwrite 1 0x41) (pOpen (at_ 6 2) 4) = some (.P, okN 1 []) ∧
      (after (.pDwrite 1 0x41) (pOpen (at_ 6 2) 4)).ram = [(1, 0x41)] := by decide
/-- P21. -/
theorem test_pDwrite_outside :
    said (.pDwrite 2 0x41) (pOpen (at_ 6 2) 4) = some (.P, bad .invalidArgument) ∧
      (after (.pDwrite 2 0x41) (pOpen (at_ 6 2) 4)).fault = 0x4 := by decide

/-! ### Consumer (95 section 2.5) -/

/-- The block of Q7 with its RAM. -/
def q7 : State := { at_ 6 2 with ram := [(2, 0x12), (3, 0x13), (4, 0x14), (5, 0x15)] }

/-- Q1. -/
theorem test_cStart :
    said .cStart State.reset = some (.C, okN 0 []) ∧ (after .cStart State.reset).rb = true := by decide
/-- Q6. -/
theorem test_cStart_busy :
    said .cStart (cOpen (at_ 0 0) 0) = some (.C, bad .busy) ∧ (after .cStart (cOpen (at_ 0 0) 0)).fault = 0x100 := by
  decide
/-- Q15. -/
theorem test_cAccess_wraps : said (.cAccess 4) (cOpen (at_ 10 6) 0) = some (.C, okN 4 [(6, 2), (0, 2)]) := by decide
/-- Q2. -/
theorem test_cAccess_empty : said (.cAccess 1) (cOpen (at_ 0 0) 0) = some (.C, bad .outOfSpace) := by decide
/-- R163's example. -/
theorem test_cAccessPart : said (.cAccessPart 8) (cOpen (at_ 3 0) 0) = some (.C, okN 3 [(0, 3)]) := by decide
/-- R164's example. -/
theorem test_cCommit :
    said .cCommit (cOpen (at_ 6 2) 4) = some (.C, okN 4 []) ∧ (after .cCommit (cOpen (at_ 6 2) 4)).tail = 6 := by
  decide
/-- Q8. -/
theorem test_cCancel :
    said .cCancel (cOpen (at_ 6 2) 4) = some (.C, okN 4 []) ∧ (after .cCancel (cOpen (at_ 6 2) 4)).tail = 2 := by
  decide
/-- Q7. -/
theorem test_cRead :
    said (.cRead 4) (cOpen q7 0) = some (.C, Spec.response .ok 4 [(2, 4)] 0 [0x12, 0x13, 0x14, 0x15]) := by decide
/-- Q5. -/
theorem test_cRead_noTx :
    said (.cRead 1) State.reset = some (.C, bad .noTransaction) ∧ (after (.cRead 1) State.reset).fault = 0x200 := by
  decide
/-- Q14 with the RAM 0xC7, 0xC0, 0xC1 at offsets 7, 0, 1. -/
theorem test_cReadPart_wraps :
    said (.cReadPart 8) (cOpen { at_ 10 7 with ram := [(0, 0xC0), (1, 0xC1), (7, 0xC7)] } 0) =
      some (.C, Spec.response .ok 3 [(7, 1), (0, 2)] 0 [0xC7, 0xC0, 0xC1]) := by decide
/-- Q10. -/
theorem test_cReadAtomic :
    said (.cReadAtomic 4) q7 = some (.C, Spec.response .ok 4 [] 0 [0x12, 0x13, 0x14, 0x15]) ∧
      (after (.cReadAtomic 4) q7).tail = 6 := by decide
/-- Q9. -/
theorem test_cReadAtomic_short : said (.cReadAtomic 5) q7 = some (.C, bad .outOfSpace) := by decide
/-- Q11. -/
theorem test_cDread : said (.cDread 3) (cOpen q7 4) = some (.C, Spec.response .ok 1 [] 0x13 []) := by decide
/-- Q12. -/
theorem test_cDread_outside :
    said (.cDread 6) (cOpen q7 4) = some (.C, bad .invalidArgument) ∧
      (after (.cDread 6) (cOpen q7 4)).fault = 0x400 := by decide

/-! ### Reset, environment, the end of a run -/

/-- R251: a command not yet applied is discarded by reset, with no response. -/
theorem test_reset_discards :
    stepped { State.issue (pOpen (at_ 6 2) 1) .P ⟨0x3, 0, 0, []⟩ with resetIn := true } = State.reset := by decide
/-- Program 4 of 95: a run ending with a transaction open is not accepted. -/
theorem test_open_run_not_accepted : (cOpen (at_ 8 0) 8).accepted = false ∧ (at_ 8 0).accepted = true := by decide
/-- R261 duty 1, and a base address of 0x1000 (R10). -/
theorem test_ownWrite :
    env (.ownWrite 0x1007 0x55)
        { pOpen (at_ 6 2) 4 with cfg := { capLog2 := 3, peerView := .lagged, dataBase := 0x1000 } } =
      .next { pOpen (at_ 6 2) 4 with
        cfg := { capLog2 := 3, peerView := .lagged, dataBase := 0x1000 }, ram := [(7, 0x55)] } ∧
      env (.ownWrite 5 0x55) (pOpen (at_ 6 2) 4) = .fault .ownPathOutsideWindow := ⟨rfl, rfl⟩

/-! ### Witnesses: each clause of each statement with hypotheses, at a state and operands that meet them together -/

theorem witness_DecodeOfEncodeIsTheCommand :
    (Instr.pWriteAtomic 1 [0xAB]).wellFormed = true ∧ (Instr.cRdreg 0xFF).wellFormed = true := by decide

theorem witness_DecodeFollowsTheOpcodeMap :
    decodeWord .C ⟨0x0000FF87, 0, 0, []⟩ = .instr (.cRdreg 0xFF) ∧
      (⟨"C.RDREG", .C, 0x00000087, 0xFFFF00FF⟩ : OpcodeRow) ∈ opcodeMap ∧
      (⟨"C.RDREG", .C, 0x00000087, 0xFFFF00FF⟩ : OpcodeRow).matches .C 0x0000FF87 = true := by decide

/-- One word per alternative of the list, and a payload one byte short. -/
theorem witness_ReservedWords :
    Spec.ReservedWord .P 0x00010000 ∧ Spec.ReservedWord .P 0x00000020 ∧ Spec.ReservedWord .P 0x00000080 ∧
      Spec.ReservedWord .P 0x0000000B ∧ Spec.ReservedWord .P 0x00000100 ∧ Spec.ReservedWord .P 0x00000010 ∧
      Spec.ReservedWord .C 0x00000088 ∧ Spec.ReservedWord .P 0x00000009 ∧ ([0x01] : List Byte).length ≠ (2 : Word).toNat :=
  ⟨by decide, by decide, by decide, by decide, by decide, by decide, by decide, by decide, by decide⟩

/-- A malformed and a well-formed command waiting on port P. -/
theorem witness_StepOfWaitingCommand :
    (∃ f, (State.reset.issue .P ⟨0x9, 0, 0, []⟩).fetch = some f ∧
        decode f.port f.cmd = .malformed .readByteOnProducer) ∧
      (∃ f, (State.reset.issue .C ⟨0x81, 0, 0, []⟩).fetch = some f ∧ decode f.port f.cmd = .instr .cStart) ∧
      (State.reset.issue .P ⟨0x9, 0, 0, []⟩).resetIn = false :=
  ⟨⟨_, rfl, by decide⟩, ⟨_, rfl, by decide⟩, rfl⟩

/-- One port waiting, and both. -/
theorem witness_EachCommandGetsOneResponse :
    (State.reset.issue .C ⟨0x81, 0, 0, []⟩).cQueue ≠ [] ∧
      ((State.reset.issue .C ⟨0x81, 0, 0, []⟩).issue .P ⟨0x1, 0, 0, []⟩).pQueue ≠ [] ∧
      ((State.reset.issue .C ⟨0x81, 0, 0, []⟩).issue .P ⟨0x1, 0, 0, []⟩).resetIn = false := by decide

theorem witness_LoadedProgramRunsInLineOrder :
    State.reset.pQueue = [] ∧ State.reset.cQueue = [] ∧ State.reset.grants = [] := by decide

/-- One `P.NOP` waiting on port P. -/
def nopWaiting : State := State.reset.issue .P ⟨0x0, 0, 0, []⟩

/-- A run that serves the one waiting command and then idles. -/
theorem witness_WaitingPortIsServed :
    ∃ run : Nat → State, (∀ k, (run k).resetIn = false) ∧ (run 0).queue .P ≠ [] ∧ Spec.IsRun run := by
  have served : step nopWaiting = .next (stepped nopWaiting) := rfl
  have same : stepped nopWaiting =
      { stepped nopWaiting with
        pQueue := (stepped nopWaiting).pQueue ++ [], cQueue := (stepped nopWaiting).cQueue ++ [] } := by decide
  have idle : step (stepped nopWaiting) = .next (stepped nopWaiting) := rfl
  refine ⟨fun k => match k with | 0 => nopWaiting | _ + 1 => stepped nopWaiting, fun k => ?_, by decide, fun k => ?_⟩
  · cases k
    · rfl
    · exact (by decide : (stepped nopWaiting).resetIn = false)
  · cases k with
    | zero => exact ⟨stepped nopWaiting, [], [], served, same⟩
    | succ k => exact ⟨stepped nopWaiting, [], [], idle, same⟩

theorem witness_ResetLeavesTheResetValues : ({ at_ 6 2 with resetIn := true } : State).resetIn = true := by decide

/-- The last defined index and the first and last reserved ones. -/
theorem witness_RegisterReadReturnsTheRegister :
    (0x0F : BitVec 8).toNat < 0x10 ∧ (at_ 6 2).Inv ∧
      0x10 ≤ (0x10 : BitVec 8).toNat ∧ 0x10 ≤ (0xFF : BitVec 8).toNat := by decide

/-- The last offset and the first outside. -/
theorem witness_ProbeReportsTheWindows :
    (7 : Word).toNat < Spec.cap (at_ 8 0) ∧ ((8 : Word) - 0).toNat ≤ Spec.cap (at_ 8 0) ∧
      Spec.cap (at_ 8 0) ≤ (8 : Word).toNat ∧ (at_ 8 0).Inv := by decide

theorem witness_Starts :
    (pOpen (at_ 0 0) 3).pIntx = true ∧
      (State.reset.setGuard .P true).pIntx = false ∧ (State.reset.setGuard .P true).wb = true ∧
      State.reset.pIntx = false ∧ State.reset.wb = false ∧
      (cOpen (at_ 0 0) 0).cIntx = true ∧
      (State.reset.setGuard .C true).cIntx = false ∧ (State.reset.setGuard .C true).rb = true ∧
      State.reset.cIntx = false ∧ State.reset.rb = false := by decide

theorem witness_CommitsAndCancels :
    State.reset.pIntx = false ∧ (pOpen (at_ 5 5) 6).pIntx = true ∧ State.reset.cIntx = false ∧
      (cOpen (at_ 6 2) 4).cIntx = true := by decide

/-- Available 1 of 8, a size of 1 and of 2; the arithmetic at its bound (pending 4) and one past it. -/
theorem witness_ProducerAccess :
    State.reset.pIntx = false ∧
      ((pOpen (at_ 6 2) 5).pIntx = true ∧ ¬ Spec.arithOk (pOpen (at_ 6 2) 5) .P) ∧
      ((pOpen (at_ 6 2) 4).pIntx = true ∧ Spec.arithOk (pOpen (at_ 6 2) 4) .P ∧
        Spec.avail (pOpen (at_ 6 2) 4) .P < (1 : Word).toNat) ∧
      ((pOpen (at_ 6 2) 3).pIntx = true ∧ Spec.arithOk (pOpen (at_ 6 2) 3) .P ∧
        (1 : Word).toNat ≤ Spec.avail (pOpen (at_ 6 2) 3) .P ∧
        Spec.avail (pOpen (at_ 6 2) 3) .P < (2 : Word).toNat ∧
        1 = min (2 : Word).toNat (Spec.avail (pOpen (at_ 6 2) 3) .P)) := by decide

/-- The mirror, and more data observed than `CAPACITY` holds. -/
theorem witness_ConsumerAccess :
    State.reset.cIntx = false ∧
      ((cOpen (at_ 6 2) 5).cIntx = true ∧ ¬ Spec.arithOk (cOpen (at_ 6 2) 5) .C) ∧
      ((cOpen (at_ 11 2) 0).cIntx = true ∧ ¬ Spec.arithOk (cOpen (at_ 11 2) 0) .C) ∧
      ((cOpen (at_ 6 2) 4).cIntx = true ∧ Spec.arithOk (cOpen (at_ 6 2) 4) .C ∧
        Spec.avail (cOpen (at_ 6 2) 4) .C < (1 : Word).toNat) ∧
      ((cOpen (at_ 10 2) 7).cIntx = true ∧ Spec.arithOk (cOpen (at_ 10 2) 7) .C ∧
        (1 : Word).toNat ≤ Spec.avail (cOpen (at_ 10 2) 7) .C ∧
        1 = min (2 : Word).toNat (Spec.avail (cOpen (at_ 10 2) 7) .C)) := by decide

/-- Payloads of the wrong (also for `WrongPayloadLengthIsRefused`) and of the right length beside the states of the
accesses. -/
theorem witness_ProducerWrite :
    ([0x01] : List Byte).length ≠ (2 : Word).toNat ∧
      (([0x01] : List Byte).length = (1 : Word).toNat ∧ State.reset.pIntx = false) ∧
      (([0x01] : List Byte).length = (1 : Word).toNat ∧ (pOpen (at_ 6 2) 5).pIntx = true ∧
        ¬ Spec.arithOk (pOpen (at_ 6 2) 5) .P) ∧
      (([0x01] : List Byte).length = (1 : Word).toNat ∧ (pOpen (at_ 6 2) 4).pIntx = true ∧
        Spec.arithOk (pOpen (at_ 6 2) 4) .P ∧ Spec.avail (pOpen (at_ 6 2) 4) .P < (1 : Word).toNat) ∧
      (([0x01] : List Byte).length = (1 : Word).toNat ∧ (pOpen (at_ 6 2) 3).pIntx = true ∧
        Spec.arithOk (pOpen (at_ 6 2) 3) .P ∧ (1 : Word).toNat ≤ Spec.avail (pOpen (at_ 6 2) 3) .P ∧
        1 = min (1 : Word).toNat (Spec.avail (pOpen (at_ 6 2) 3) .P)) := by decide

theorem witness_ProducerAtomicWrite :
    (([0x01] : List Byte).length ≠ (0 : Word).toNat) ∧
      (([0x01] : List Byte).length = (1 : Word).toNat ∧ (pOpen (at_ 0 0) 3).pIntx = true) ∧
      ((State.reset.setGuard .P true).pIntx = false ∧ (State.reset.setGuard .P true).wb = true) ∧
      ((at_ 9 0).pIntx = false ∧ (at_ 9 0).wb = false ∧ ¬ Spec.arithOk (at_ 9 0) .P) ∧
      ((at_ 8 0).pIntx = false ∧ (at_ 8 0).wb = false ∧ Spec.arithOk (at_ 8 0) .P ∧
        Spec.avail (at_ 8 0) .P < (1 : Word).toNat ∧ ([] : List Byte).length = (0 : Word).toNat) ∧
      ((at_ 7 0).pIntx = false ∧ (at_ 7 0).wb = false ∧ Spec.arithOk (at_ 7 0) .P ∧ (1 : Word) ≠ 0 ∧
        (1 : Word).toNat ≤ Spec.avail (at_ 7 0) .P) ∧
      ((State.reset.setGuard .P true).pPending = 0 ∧ (at_ 9 0).pPending = 0 ∧ (at_ 8 0).pPending = 0 ∧
        (at_ 7 0).pPending = 0) := by decide

theorem witness_ConsumerAtomicRead :
    (cOpen (at_ 0 0) 3).cIntx = true ∧
      ((State.reset.setGuard .C true).cIntx = false ∧ (State.reset.setGuard .C true).rb = true) ∧
      ((at_ 9 0).cIntx = false ∧ (at_ 9 0).rb = false ∧ ¬ Spec.arithOk (at_ 9 0) .C) ∧
      ((at_ 0 0).cIntx = false ∧ (at_ 0 0).rb = false ∧ Spec.arithOk (at_ 0 0) .C ∧
        Spec.avail (at_ 0 0) .C < (1 : Word).toNat) ∧
      ((at_ 8 0).cIntx = false ∧ (at_ 8 0).rb = false ∧ Spec.arithOk (at_ 8 0) .C ∧ (8 : Word) ≠ 0 ∧
        (8 : Word).toNat ≤ Spec.avail (at_ 8 0) .C) ∧
      ((State.reset.setGuard .C true).cPending = 0 ∧ (at_ 9 0).cPending = 0 ∧ (at_ 0 0).cPending = 0 ∧
        (at_ 8 0).cPending = 0) := by decide

/-- The window 6, 7, 0, 1 of R149's example: its last offset and the one after it. -/
theorem witness_ByteWriteStaysInTheWindow :
    Spec.cap (at_ 6 2) ≤ (8 : Word).toNat ∧
      ((7 : Word).toNat < Spec.cap (at_ 6 2) ∧ (at_ 6 2).pIntx = false) ∧
      ((pOpen (at_ 6 2) 4).pIntx = true ∧
        ¬ Spec.InWindow (Spec.cap (pOpen (at_ 6 2) 4)) (2 : Word).toNat (6 : Word).toNat (4 : Word).toNat) ∧
      ((pOpen (at_ 6 2) 4).pIntx = true ∧
        Spec.InWindow (Spec.cap (pOpen (at_ 6 2) 4)) (1 : Word).toNat (6 : Word).toNat (4 : Word).toNat) :=
  ⟨by decide, by decide, ⟨by decide, fun ⟨i, hi, ho⟩ => by
      revert ho; revert i; decide⟩, ⟨by decide, 3, by decide, by decide⟩⟩

/-- The window 2 to 5 of R169's example: its last offset and the one after it. -/
theorem witness_ByteReadStaysInTheWindow :
    Spec.cap (at_ 6 2) ≤ (8 : Word).toNat ∧
      ((7 : Word).toNat < Spec.cap (at_ 6 2) ∧ (at_ 6 2).cIntx = false) ∧
      ((cOpen (at_ 6 2) 4).cIntx = true ∧
        ¬ Spec.InWindow (Spec.cap (cOpen (at_ 6 2) 4)) (6 : Word).toNat (2 : Word).toNat (4 : Word).toNat) ∧
      ((cOpen (at_ 6 2) 4).cIntx = true ∧
        Spec.InWindow (Spec.cap (cOpen (at_ 6 2) 4)) (5 : Word).toNat (2 : Word).toNat (4 : Word).toNat) :=
  ⟨by decide, by decide, ⟨by decide, fun ⟨i, hi, ho⟩ => by
      revert ho; revert i; decide⟩, ⟨by decide, 3, by decide, by decide⟩⟩

/-- The last offset with the whole of the RAM, and with one byte; `GeometryIsTheWindow` and `SegmentsListTheWindow`. -/
theorem witness_Geometry :
    ((7 : Word).toNat < Spec.cap State.reset ∧ 1 ≤ (8 : Word).toNat ∧ (8 : Word).toNat ≤ Spec.cap State.reset) ∧
      ((7 : Word).toNat < Spec.cap State.reset ∧ 1 ≤ (1 : Word).toNat ∧ (1 : Word).toNat ≤ Spec.cap State.reset) := by
  decide

theorem witness_WindowPredicateNamesTheWindow :
    ((7 : Word).toNat < Spec.cap State.reset ∧ (0 : Word).toNat ≤ Spec.cap State.reset) ∧
      (8 : Word).toNat = Spec.cap State.reset := by decide

theorem witness_PeerReadWithinTheBound :
    State.reset.cfg.peerView = .current ∧
      (State.resetWith { capLog2 := 3, peerView := .lagged, dataBase := 0 }).cfg.peerView = .lagged ∧
      ((6 : Word) - 3).toNat ≤ ((6 : Word) - 3).toNat := by decide

/-- A full block with both transactions open meets the invariants; so does one across the counter wrap. -/
theorem witness_Inv :
    (cOpen (pOpen (at_ 6 2) 4) 4).Inv ∧ (cOpen (at_ 2 0xFFFFFFFFFFFFFFFA) 8).Inv ∧
      (cOpen (pOpen (at_ 6 2) 4) 4).RamInv ∧ q7.RamInv ∧ q7.FaultReservedClear ∧
      (7 : Word).toNat < Spec.cap (cOpen (pOpen (at_ 6 2) 4) 4) := by decide

/-- An access of nothing, asked again and again in an open transaction, for `EveryPeerValueIsComeTo`. -/
def polling (k : Nat) : State :=
  { pOpen (at_ 6 2) 4 with
    pQueue := [⟨0x2, 0, 0, []⟩], responses := List.replicate k (.P, Response.ok 0), tick := k }

/-- The state in which the access runs. -/
def pollTaken (k : Nat) : State := { polling k with pQueue := [], tick := k + 1 }

theorem pollTaken_access (k : Nat) : (pollTaken k).accessCore .P 0 false = ⟨.ok, 0, [], pollTaken k⟩ := by
  have good : (pollTaken k).arithBad .P 2 = false := (by decide : (pOpen (at_ 6 2) 4).arithBad .P 2 = false)
  have seen : (pollTaken k).readPeer .P = 2 := rfl
  simp only [State.accessCore, seen, good]
  simp

theorem witness_EveryPeerValueIsComeTo :
    (polling 0).Inv ∧ (∀ k, (polling k).resetIn = false) ∧ Spec.IsRun polling ∧
      ∀ k, ∃ m, k ≤ m ∧ ∃ obs, Spec.Observes (polling m) .P obs := by
  have decoded : decode .P ⟨0x2, 0, 0, []⟩ = .instr (.pAccess 0) := by decide
  have fetched (k : Nat) : (polling k).fetch = some ⟨.P, ⟨0x2, 0, 0, []⟩, pollTaken k⟩ := rfl
  refine ⟨by decide, fun _ => rfl, fun k => ?_,
    fun k => ⟨k, Nat.le_refl k, 2, _, .pAccess 0, fetched k, rfl, decoded, rfl, rfl⟩⟩
  refine ⟨{ polling (k + 1) with pQueue := [] }, [⟨0x2, 0, 0, []⟩], [], ?_, rfl⟩
  have ran : step (polling k) = exec (.pAccess 0) (pollTaken k) := by
    simp only [step, fetched, decoded]
    rfl
  simp only [ran, exec, execPAccess, State.accessTx, pollTaken_access]
  simp [State.withTx, State.inTx, pollTaken, polling, pOpen, State.respond, Access.response, Response.withSegs,
    Response.ok, List.replicate_succ']

/-- A step from a state that meets the invariants, and an action of each kind of the environment. -/
theorem witness_StepAndEnvironmentFromInv :
    ((State.issue (pOpen (at_ 6 2) 4) .P ⟨0x3, 0, 0, []⟩).Inv ∧
        ∃ t, step (State.issue (pOpen (at_ 6 2) 4) .P ⟨0x3, 0, 0, []⟩) = .next t) ∧
      (∃ t, env (.issue .P ⟨0x3, 0, 0, []⟩) (pOpen (at_ 6 2) 4) = .next t) ∧
      (∃ t, env .assertReset (pOpen (at_ 6 2) 4) = .next t) ∧
      (∃ t, env (.ownWrite 1 0x55) (pOpen (at_ 6 2) 4) = .next t) ∧
      (∃ t, env (.ownRead 5) (cOpen (at_ 6 2) 4) = .next t) :=
  ⟨⟨by decide, _, rfl⟩, ⟨_, rfl⟩, ⟨_, rfl⟩, ⟨_, rfl⟩, ⟨_, rfl⟩⟩

/-- A command that is a `COMMIT` behind a cancel ends no window that is open now (R261 duty 2). -/
theorem test_ownPathAfterCommit :
    env (.ownWrite 7 0x55) ((pOpen (at_ 6 2) 4).issue .P ⟨0x3, 0, 0, []⟩) = .fault .ownPathAfterCommit ∧
      env (.ownWrite 7 0x55) (((pOpen (at_ 6 2) 4).issue .P ⟨0x4, 0, 0, []⟩).issue .P ⟨0x3, 0, 0, []⟩) =
        .next { ((pOpen (at_ 6 2) 4).issue .P ⟨0x4, 0, 0, []⟩).issue .P ⟨0x3, 0, 0, []⟩ with ram := [(7, 0x55)] } ∧
      env (.ownRead 5) ((cOpen q7 4).issue .C ⟨0x83, 0, 0, []⟩) = .fault .ownPathAfterCommit := ⟨rfl, rfl, rfl⟩

/-- An own-path read returns the byte written there. -/
theorem test_ownRead :
    env (.ownRead 2) (cOpen q7 4) = .next { cOpen q7 4 with tick := 1, ownReads := [(2, 0x12)] } := rfl

/-- The producer's reads between the snapshot 2 and `TAIL` 5, with the goal 4 (R104, R265). -/
def lagging (left : Nat) : State :=
  { at_ 8 5 with
    cfg := { capLog2 := 3, peerView := .lagged, dataBase := 0 }, pTailSeen := 2, pLagLeft := left, pLagGoal := 4 }

/-- A read that is to come to the goal starts at it; one that may miss it starts at the snapshot; the snapshot past the
goal leaves it behind. -/
theorem test_lagPlan :
    (lagging 0).lagFloor .P = 4 ∧ (lagging 1).lagFloor .P = 2 ∧ ((lagging 1).planLag .P).lagFloor .P = 4 ∧
      ((lagging 0).planLag .P).pLagGoal = 5 ∧ ({ lagging 1 with pTailSeen := 5 }.planLag .P).pLagGoal = 5 := by decide

/-- A command with its response appended, from a state that meets the invariants. -/
theorem witness_ExecWithResponse :
    (pOpen q7 2).Inv ∧ exec .pCommit (pOpen q7 2) = .next (after .pCommit (pOpen q7 2)) ∧
      (after .pCommit (pOpen q7 2)).responses = (pOpen q7 2).responses ++ [(Instr.pCommit.side, okN 2 [])] ∧
      Instr.pCommit.wellFormed = true := ⟨by decide, rfl, by decide, by decide⟩

/-- A failing command, for the rule on failures. -/
theorem witness_FailingCommand :
    exec (.cDread 6) (cOpen q7 4) = .next (after (.cDread 6) (cOpen q7 4)) ∧
      (bad .invalidArgument).status ≠ .ok := ⟨rfl, by decide⟩

/-- Each way a counter moves and a transaction opens or closes. -/
theorem witness_CountersAndTransactions :
    (after .pCommit (pOpen q7 2)).head ≠ (pOpen q7 2).head ∧ (after (.pWriteAtomic 1 [0xAB]) q7).head ≠ q7.head ∧
      (after .cCommit (cOpen q7 2)).tail ≠ (cOpen q7 2).tail ∧ (after (.cReadAtomic 1) q7).tail ≠ q7.tail ∧
      (q7.pIntx = false ∧ (after .pStart q7).pIntx = true) ∧
      ((pOpen q7 2).pIntx = true ∧ (after .pCancel (pOpen q7 2)).pIntx = false) ∧
      (q7.cIntx = false ∧ (after .cStart q7).cIntx = true) ∧
      ((cOpen q7 2).cIntx = true ∧ (after .cCancel (cOpen q7 2)).cIntx = false) ∧
      Instr.pCommit.side = .P ∧ Instr.cCommit.side = .C := by decide

theorem witness_FaultBitsAreSticky :
    ({ q7 with fault := 0x2 } : State).resetIn = false ∧ ({ q7 with fault := 0x2 } : State).fault ≠ 0 ∧
      ∃ t, step { q7 with fault := 0x2 } = .next t := ⟨rfl, by decide, _, rfl⟩

/-- The reads of `ReadsReturnTheCommittedBytes`, with a committed byte at the place read. -/
theorem witness_ReadsReturnTheCommittedBytes :
    (cOpen q7 1).Inv ∧
      exec (.cRead 2) (cOpen q7 1) = .next (after (.cRead 2) (cOpen q7 1)) ∧
      (after (.cRead 2) (cOpen q7 1)).responses =
        (cOpen q7 1).responses ++ [(.C, Spec.response .ok 2 [(3, 2)] 0 [0x13, 0x14])] ∧
      (cOpen q7 1).committed[(cOpen q7 1).cPending.toNat + 1]? = some (some 0x14) ∧
      exec (.cReadAtomic 2) q7 = .next (after (.cReadAtomic 2) q7) ∧
      (after (.cReadAtomic 2) q7).responses = q7.responses ++ [(.C, Spec.response .ok 2 [] 0 [0x12, 0x13])] ∧
      q7.committed[1]? = some (some 0x13) := ⟨by decide, rfl, by decide, by decide, rfl, by decide, by decide⟩

/-- Two states that differ in the producer's open transaction and in an uncommitted byte. -/
theorem witness_ConsumerSeesOnlyCommittedData :
    (cOpen q7 1).Inv ∧ (pOpen { cOpen q7 1 with ram := q7.ram ++ [(6, 0xB0)] } 1).Inv ∧
      (Instr.cRead 2).side = .C ∧
      (cOpen q7 1).committed = (pOpen { cOpen q7 1 with ram := q7.ram ++ [(6, 0xB0)] } 1).committed ∧
      (∃ t, exec (.cRead 2) (cOpen q7 1) = .next t) ∧
      ∃ t, exec (.cRead 2) (pOpen { cOpen q7 1 with ram := q7.ram ++ [(6, 0xB0)] } 1) = .next t :=
  ⟨by decide, by decide, rfl, by decide, ⟨_, rfl⟩, ⟨_, rfl⟩⟩

theorem witness_AtomicRoundTrip :
    (at_ 5 5).Inv ∧ (at_ 5 5).cfg.peerView = .current ∧ (at_ 5 5).head = (at_ 5 5).tail ∧
      (at_ 5 5).pIntx = false ∧ (at_ 5 5).cIntx = false ∧ ([0x61, 0x62, 0x63, 0x64, 0x65] : List Byte) ≠ [] ∧
      ([0x61, 0x62, 0x63, 0x64, 0x65] : List Byte).length ≤ Spec.cap (at_ 5 5) := by decide

theorem witness_CancelUndoesAnyAccesses :
    (at_ 6 2).pIntx = false ∧ (at_ 6 2).wb = false ∧ (at_ 6 2).pPending = 0 := by decide

/-- An own-path read in the window, and each way it stops. -/
theorem witness_OwnPathReadReturnsTheByte :
    Spec.cap (cOpen q7 4) ≤ 8 ∧
      ¬ ((cOpen q7 4).cIntx = true ∧ Spec.InWindow (Spec.cap (cOpen q7 4)) 6 (2 : Word).toNat (4 : Word).toNat) ∧
      Spec.InWindow (Spec.cap (cOpen q7 4)) 5 (2 : Word).toNat (4 : Word).toNat ∧ (cOpen q7 4).cIntx = true ∧
      Spec.CommitIssued ((cOpen q7 4).issue .C ⟨0x83, 0, 0, []⟩) .C ∧ ¬ Spec.CommitIssued (cOpen q7 4) .C :=
  ⟨by decide, fun ⟨_, i, hi, ho⟩ => by revert ho; revert i; decide, ⟨3, by decide, by decide⟩, by decide,
    ⟨[], [], _, rfl, .inr (by decide), by simp⟩, fun ⟨before, after, c, h, _⟩ => by simp [State.queue, cOpen, q7, at_, State.reset, State.resetWith] at h⟩

/-- An offset outside the region, one outside the window, one inside it, with and without the commit issued. -/
theorem witness_OwnPathWriteLeavesTheStream :
    (pOpen (at_ 6 2) 4).Inv ∧ Spec.cap (pOpen (at_ 6 2) 4) ≤ 8 ∧
      ¬ ((pOpen (at_ 6 2) 4).pIntx = true ∧ Spec.InWindow (Spec.cap (pOpen (at_ 6 2) 4)) 2 (6 : Word).toNat (4 : Word).toNat) ∧
      Spec.InWindow (Spec.cap (pOpen (at_ 6 2) 4)) 1 (6 : Word).toNat (4 : Word).toNat ∧
      Spec.CommitIssued ((pOpen (at_ 6 2) 4).issue .P ⟨0x3, 0, 0, []⟩) .P ∧
      ¬ Spec.CommitIssued (pOpen (at_ 6 2) 4) .P :=
  ⟨by decide, by decide, fun ⟨_, i, hi, ho⟩ => by revert ho; revert i; decide, ⟨3, by decide, by decide⟩,
    ⟨[], [], _, rfl, .inl (by decide), by simp⟩, fun ⟨before, after, c, h, _⟩ => by simp [State.queue, pOpen, at_, State.reset, State.resetWith] at h⟩

end Sys2Proof.Tests
end

section
/-! SUPPORT. Distances between the 64-bit counters, and the peer counter a command may observe (spec/40_header.md
R104). -/

namespace Sys2Proof.Machine

/-! ### Distances between counters

The counters are 64-bit values that wrap, so `a - b` is how far `a` is ahead of `b`. -/

/-- A value no farther from `a` than `b` is splits the way from `a` to `b`. -/
theorem toNat_sub_add_toNat_sub_of_le (a x b : Word) (h : x - a ≤ b - a) :
    (x - a).toNat + (b - x).toNat = (b - a).toNat := by
  bv_omega

/-- Two ways whose lengths do not add up past the word make one way. -/
theorem toNat_sub_trans (a b c : Word) (h : (b - a).toNat + (c - b).toNat < 2 ^ 64) :
    (c - a).toNat = (b - a).toNat + (c - b).toNat := by
  bv_omega

/-- A counter that moves on without passing the end of the word is that much farther ahead. -/
theorem toNat_add_sub (a n b : Word) (h : (a - b).toNat + n.toNat < 2 ^ 64) :
    (a + n - b).toNat = (a - b).toNat + n.toNat := by
  bv_omega

/-- A counter that catches up by no more than the distance is that much less far behind. -/
theorem toNat_sub_add (a b n : Word) (h : n.toNat ≤ (a - b).toNat) :
    (a - (b + n)).toNat = (a - b).toNat - n.toNat := by
  bv_omega

theorem minWord_le_right (a b : Word) : minWord a b ≤ b := by
  unfold minWord
  split
  · assumption
  · exact BitVec.le_refl b

/-! ### The observed peer counter (spec/40_header.md R104) -/

/-- A value of the peer's counter that the side may still come to observe: not before its snapshot, not past the
counter. -/
abbrev State.Observable (s : State) (sd : Side) (obs : Word) : Prop :=
  obs - s.seen sd ≤ s.peer sd - s.seen sd

theorem State.observable_seen (s : State) (sd : Side) : s.Observable sd (s.seen sd) := by
  simp [State.Observable, BitVec.le_def]

/-- `ReadPeer` keeps the bound under either `PEER_VIEW`. -/
theorem State.observable_readPeer (s : State) (sd : Side) : s.Observable sd (s.readPeer sd) := by
  unfold State.readPeer State.Observable
  split
  · exact BitVec.le_refl _
  · have draw := laggedDraw_le (s.lagFloor sd) (s.peer sd) (Config.freeLag s.tick)
    rcases s.lagFloor_cases sd with ⟨-, ahead, floor⟩ | floor
    · rw [floor] at draw ⊢
      bv_omega
    · rwa [floor] at draw ⊢

/-! ### What the space calculator has room for (spec/41_datapath.md R129, R130, R135) -/

/-- `n` bytes from the side's counter on lie where an observed peer counter lets the side work: the producer in free
space, the consumer in committed data. -/
def State.Fits (s : State) : Side → Word → Word → Prop
  | .P, obs, n => (s.head - obs).toNat + n.toNat ≤ s.capacity.toNat
  | .C, obs, n => n.toNat ≤ (obs - s.tail).toNat

/-- The side can be served `n` more bytes: the arithmetic holds for the counter it observes and `n` bytes are available
(R134, R148, R168). -/
structure State.HasRoom (s : State) (sd : Side) (n : Word) : Prop where
  arith : s.arithBad sd (s.readPeer sd) = false
  avail : n ≤ s.avail sd (s.readPeer sd)

/-- Bytes there is room for fit behind those already pending. -/
theorem State.HasRoom.fits {s : State} {sd : Side} {n : Word} (h : s.HasRoom sd n) :
    s.Fits sd (s.readPeer sd) (s.pending sd + n) := by
  obtain ⟨arith, avail⟩ := h
  cases sd with
  | P =>
    simp only [State.arithBad, State.avail, State.pAvail, decide_eq_false_iff_not] at arith avail
    simp only [State.Fits, State.pending_P]
    bv_omega
  | C =>
    simp only [State.arithBad, State.avail, State.cAvail, Bool.or_eq_false_iff, decide_eq_false_iff_not] at arith avail
    simp only [State.Fits, State.pending_C]
    bv_omega

end Sys2Proof.Machine
end

section
/-! SUPPORT. Everything a command can do to the state (spec/42_producer.md, spec/43_consumer.md, spec/44_status.md)
and everything a step can do, said once. -/

namespace Sys2Proof.Machine

/-! ### What a command can do to the registers and to the data RAM -/

/-- Everything a command of a side can do to the registers, with the guard under which it does it. -/
inductive State.Moves (s : State) (sd : Side) : State → Prop
  /-- nothing changes -/
  | none : Moves s sd s
  /-- a misuse is recorded (spec/60_exceptions.md R220) -/
  | misuse (m : Misuse) : Moves s sd (s.stickyFault sd m)
  /-- `START` (R141, R161) -/
  | opened (idle : s.inTx sd = false) (free : s.guard sd = false) :
      Moves s sd (((s.setGuard sd true).setInTx sd true).setPending sd 0)
  /-- bytes are served within a transaction (R134) -/
  | served (n : Word) (inTx : s.inTx sd = true) (room : s.HasRoom sd n) :
      Moves s sd ((s.setPending sd (s.pending sd + n)).setSeen sd (s.readPeer sd))
  /-- `COMMIT` (R144, R164) -/
  | published (inTx : s.inTx sd = true) : Moves s sd ((s.incOwn sd (s.pending sd)).closeTx sd)
  /-- `CANCEL` (R145, R165) -/
  | cancelled (inTx : s.inTx sd = true) : Moves s sd (s.closeTx sd)
  /-- an atomic copy (R148, R168) -/
  | copied (n : Word) (idle : s.inTx sd = false) (free : s.guard sd = false) (room : s.HasRoom sd n) :
      Moves s sd ((s.incOwn sd n).setSeen sd (s.readPeer sd))

/-- Everything a command of a side can leave in the data RAM; only the producer's commands store. -/
inductive State.Stores (s : State) : Side → Memory → Prop
  /-- nothing is stored -/
  | none (sd : Side) : Stores s sd s.ram
  /-- bytes stored in a window (R146 to R148) -/
  | window (start : Word) (bs : List Byte) : Stores s .P (s.writeWindow start 0 bs s.ram)
  /-- a byte stored at an existing offset of the open window (R149) -/
  | byte (o : Word) (b : Byte) (legal : o < s.capacity) (inTx : s.pIntx = true) (inside : s.pWin o = true) :
      Stores s .P (s.ram.write o.toNat b)

/-- A command of the side can take `s` to `t`: it moves the registers, stores, and answers once on its port. -/
def State.Does (s : State) (sd : Side) (t : State) : Prop :=
  ∃ (u : State) (m : Memory) (r : Response), s.Moves sd u ∧ s.Stores sd m ∧ t = { u with ram := m }.respond sd r

section
variable {s u : State} {sd : Side}

theorem State.Moves.cfg_eq (h : s.Moves sd u) : u.cfg = s.cfg := by
  cases h <;> simp [State.incOwn, State.closeTx, State.endGuard]

theorem State.Moves.ram_eq (h : s.Moves sd u) : u.ram = s.ram := by
  cases h <;> simp [State.incOwn, State.closeTx, State.endGuard]

/-- A command that stores nothing. -/
theorem State.Moves.does (h : s.Moves sd u) (r : Response) : s.Does sd (u.respond sd r) :=
  ⟨u, s.ram, r, h, .none sd, by rw [← h.ram_eq]⟩

/-- A command that stores. -/
theorem State.Moves.does_stores {m : Memory} (h : s.Moves sd u) (hm : s.Stores sd m) (r : Response) :
    s.Does sd ({ u with ram := m }.respond sd r) :=
  ⟨u, m, r, h, hm, rfl⟩

end

/-! ### What each shared operation does -/

section
variable (s : State) (sd : Side)

theorem State.does_fail (st : Status) (misuse : Option Misuse) : s.Does sd (s.fail sd st misuse) := by
  cases misuse with
  | none => exact Moves.none.does _
  | some m => exact (Moves.misuse m).does _

variable {s sd} {k : State}

theorem State.Does.withPayload (size : Word) (payload : List Byte) (h : s.Does sd k) :
    s.Does sd (s.withPayload sd size payload k) := by
  unfold State.withPayload
  split
  · exact h
  · exact s.does_fail sd _ _

theorem State.Does.withOffset {o : Word} (h : o < s.capacity → s.Does sd k) : s.Does sd (s.withOffset sd o k) := by
  unfold State.withOffset
  split
  next => exact s.does_fail sd _ _
  next legal => exact h (BitVec.not_le.mp legal)

theorem State.Does.withTx (h : s.inTx sd = true → s.Does sd k) : s.Does sd (s.withTx sd k) := by
  unfold State.withTx
  split
  next inTx => exact h inTx
  next => exact s.does_fail sd _ _

theorem State.Does.withIdle (h : s.inTx sd = false → s.guard sd = false → s.Does sd k) :
    s.Does sd (s.withIdle sd k) := by
  unfold State.withIdle
  split
  next => exact s.does_fail sd _ _
  next idle =>
    split
    next => exact s.does_fail sd _ _
    next free => exact h (Bool.eq_false_of_not_eq_true idle) (Bool.eq_false_of_not_eq_true free)

variable (s sd)

theorem State.does_startTx : s.Does sd (s.startTx sd) := by
  unfold State.startTx
  split
  next => exact s.does_fail sd _ _
  next idle =>
    rcases s.beginGuard_cases sd with ⟨-, begun⟩ | ⟨free, begun⟩ <;> rw [begun]
    · exact s.does_fail sd _ _
    · exact (Moves.opened (Bool.eq_false_of_not_eq_true idle) free).does _

/-- `AccessCore` in an open transaction serves bytes there is room for, or changes nothing but a `FAULT` bit (R134). -/
theorem State.moves_accessCore (size : Word) (ap : Bool) (inTx : s.inTx sd = true) :
    s.Moves sd (s.accessCore sd size ap).after := by
  rcases s.accessCore_cases sd size ap with ⟨-, eq⟩ | ⟨-, -, -, eq⟩ | ⟨-, -, -, eq⟩ | ⟨arith, -, -, -, eq⟩ <;> rw [eq]
  · exact .misuse .arith
  · exact .none
  · exact .none
  · exact .served _ inTx ⟨arith, minWord_le_right _ _⟩

theorem State.does_accessTx (size : Word) (ap : Bool) : s.Does sd (s.accessTx sd size ap) :=
  .withTx fun inTx => (s.moves_accessCore sd size ap inTx).does _

theorem State.does_commitTx : s.Does sd (s.commitTx sd) :=
  .withTx fun inTx => (Moves.published inTx).does _

theorem State.does_cancelTx : s.Does sd (s.cancelTx sd) :=
  .withTx fun inTx => (Moves.cancelled inTx).does _

theorem State.does_readReg (reg : BitVec 8) : s.Does sd (s.readReg sd reg) := by
  unfold State.readReg
  split
  · exact s.does_fail sd _ _
  · exact Moves.none.does _

theorem State.does_probe (o : Word) : s.Does sd (s.probe sd o) :=
  .withOffset fun _ => Moves.none.does _

/-- The copy of a write command sees of a state only its build parameters. -/
theorem State.writeWindow_congr (s s' : State) (h : s.cfg = s'.cfg) : s.writeWindow = s'.writeWindow := by
  funext start i bs m
  induction bs generalizing i m with
  | nil => rfl
  | cons b bs ih => simp only [State.writeWindow, ih, State.segAddr_congr s s' h]

theorem State.does_writeTx (size : Word) (payload : List Byte) (ap : Bool) (inTx : s.inTx .P = true) :
    s.Does .P (s.writeTx size payload ap) := by
  have moved := s.moves_accessCore .P size ap inTx
  simp only [State.writeTx]
  split
  · rw [State.copyIn, State.writeWindow_congr _ s moved.cfg_eq, moved.ram_eq]
    exact moved.does_stores (.window _ _) _
  · exact moved.does _

theorem State.does_writeAtomic (size : Word) (payload : List Byte) (idle : s.inTx .P = false)
    (free : s.guard .P = false) : s.Does .P (s.writeAtomic size payload) := by
  simp only [State.writeAtomic]
  split
  next => exact s.does_fail .P _ _
  next arith =>
    split
    next => exact s.does_fail .P _ _
    next avail =>
      split
      next => exact Moves.none.does _
      next =>
        have room : s.HasRoom .P size := ⟨Bool.eq_false_of_not_eq_true arith, BitVec.not_lt.mp avail⟩
        exact (Moves.copied size idle free room).does_stores (.window _ payload) _

theorem State.does_readTx (size : Word) (ap : Bool) (inTx : s.inTx .C = true) : s.Does .C (s.readTx size ap) := by
  simp only [State.readTx]
  split <;> exact (s.moves_accessCore .C size ap inTx).does _

theorem State.does_readAtomic (size : Word) (idle : s.inTx .C = false) (free : s.guard .C = false) :
    s.Does .C (s.readAtomic size) := by
  simp only [State.readAtomic]
  split
  next => exact s.does_fail .C _ _
  next arith =>
    split
    next => exact s.does_fail .C _ _
    next avail =>
      split
      next => exact Moves.none.does _
      next =>
        have room : s.HasRoom .C size := ⟨Bool.eq_false_of_not_eq_true arith, BitVec.not_lt.mp avail⟩
        exact (Moves.copied size idle free room).does _

end

theorem State.does_pDwrite (s : State) (o : Word) (b : Byte) (legal : o < s.capacity) (inTx : s.pIntx = true) :
    s.Does .P (if s.pWin o then (s.memWrite o b).respond .P (.ok 1) else s.fail .P .invalidArgument (some .window)) := by
  split
  next inside => exact Moves.none.does_stores (.byte o b legal inTx inside) _
  next => exact s.does_fail .P _ _

theorem State.does_cDread (s : State) (o : Word) (r : Response) :
    s.Does .C (if s.cWin o then s.respond .C r else s.fail .C .invalidArgument (some .window)) := by
  split
  · exact Moves.none.does _
  · exact s.does_fail .C _ _

/-- Everything a command can do. -/
theorem exec_does (i : Instr) (s t : State) (h : exec i s = .next t) : s.Does i.side t := by
  cases i <;> injection h with h <;> subst h
  case pNop | cNop => exact State.Moves.none.does _
  case pStart | cStart => exact s.does_startTx _
  case pAccess | pAccessPart | cAccess | cAccessPart => exact s.does_accessTx _ _ _
  case pCommit | cCommit => exact s.does_commitTx _
  case pCancel | cCancel => exact s.does_cancelTx _
  case pWrite | pWritePart => exact .withPayload _ _ (.withTx (s.does_writeTx _ _ _))
  case pWriteAtomic => exact .withPayload _ _ (.withIdle (s.does_writeAtomic _ _))
  case pDwrite => exact .withOffset fun legal => .withTx (s.does_pDwrite _ _ legal)
  case cRead | cReadPart => exact .withTx (s.does_readTx _ _)
  case cReadAtomic => exact .withIdle (s.does_readAtomic _)
  case cDread => exact .withOffset fun _ => .withTx fun _ => s.does_cDread _ _
  case pRdreg | cRdreg => exact s.does_readReg _ _
  case pProbe | cProbe => exact s.does_probe _ _

/-! ### What a step can do -/

/-- Taking a command off its port changes that port's queue, the grants, the draw index and the plan of that side's
peer reads (spec/20_memory.md R60). -/
theorem State.fetch_after (s : State) (f : Fetched) (h : s.fetch = some f) :
    ∃ rest gs left goal, f.after = (s.take f.port rest gs).setLag f.port left goal := by
  rcases s.fetch_cases f h with ⟨rest, gs, port, -, after⟩ | ⟨rest, gs, port, -, after⟩ <;>
    obtain ⟨left, goal, planned⟩ := (s.take f.port rest gs).planRead_cases f.port f.cmd <;>
    exact ⟨rest, gs, left, goal, by rw [after, ← planned, port]⟩

/-- A step is a reset, or nothing, or what one side's command does to the state it is taken in. -/
theorem step_does (s t : State) (h : step s = .next t) :
    t = s.applyReset ∨ t = s ∨ ∃ f sd, s.fetch = some f ∧ f.after.Does sd t := by
  rcases step_cases s with ⟨-, eq⟩ | ⟨-, -, eq⟩ | ⟨f, i, -, fetched, -, eq⟩ | ⟨f, -, -, fetched, -, eq⟩ <;>
    rw [eq] at h
  · injection h with h
    exact .inl h.symm
  · injection h with h
    exact .inr (.inl h.symm)
  · exact .inr (.inr ⟨f, i.side, fetched, exec_does i f.after t h⟩)
  · injection h with h
    exact .inr (.inr ⟨f, f.port, fetched, h ▸ f.after.does_fail f.port _ _⟩)

end Sys2Proof.Machine
end

section
/-! SUPPORT. The invariants 1 to 5 of spec/10_state.md R37 hold after reset and are kept by every move of a command. -/

namespace Sys2Proof.Machine

/-! ### Reset, and the taking of a command -/

/-- The reset state meets the invariants (spec/70_reset_and_hazards.md R252). -/
theorem State.inv_resetWith (cfg : Config) : (State.resetWith cfg).Inv := by
  refine ⟨?_, ⟨rfl, rfl, fun _ => rfl, fun _ => rfl⟩, ?_, ?_⟩
  · simp [State.CounterInv, State.resetWith, State.occ]
  · simp [State.ProducerInv, State.resetWith]
  · simp [State.ConsumerInv, State.resetWith]

theorem State.Inv.applyReset (s : State) : s.applyReset.Inv :=
  State.inv_resetWith s.cfg

theorem State.inv_take (s : State) (port : Side) (rest : List Command) (gs : List Side) :
    (s.take port rest gs).Inv ↔ s.Inv := by
  cases port <;> rfl

theorem State.inv_setLag (s : State) (sd : Side) (left : Nat) (goal : Word) : (s.setLag sd left goal).Inv ↔ s.Inv := by
  cases sd <;> rfl

/-- A taken command runs in a state that meets them. -/
theorem State.inv_fetch {s : State} {f : Fetched} (hi : s.Inv) (h : s.fetch = some f) : f.after.Inv := by
  obtain ⟨rest, gs, left, goal, eq⟩ := s.fetch_after f h
  rwa [eq, State.inv_setLag, State.inv_take]

/-- `CAPACITY` is far from the end of the word, so that no sum of two distances within it wraps. -/
theorem State.capacity_le (s : State) : s.capacity.toNat ≤ 2 ^ 63 :=
  s.capacity_toNat ▸ s.two_pow_le

section
variable {s u : State} {sd : Side} {obs n : Word}

/-- The pending bytes fit for the snapshot (items 4 and 5). -/
theorem State.Inv.fits_pending (hi : s.Inv) (sd : Side) : s.Fits sd (s.seen sd) (s.pending sd) := by
  obtain ⟨-, -, ⟨-, pWin⟩, ⟨-, cWin⟩⟩ := hi
  cases sd with
  | P => exact pWin
  | C => exact cWin

theorem State.Inv.pending_of_idle (hi : s.Inv) (idle : s.inTx sd = false) : s.pending sd = 0 := by
  obtain ⟨-, ⟨-, -, pIdle, cIdle⟩, -, -⟩ := hi
  cases sd with
  | P => exact pIdle idle
  | C => exact cIdle idle

/-- A `TAIL` the producer may observe, `TAIL` and `HEAD` stand in this order within `CAPACITY` (item 4). -/
theorem State.Inv.observed_P (hi : s.Inv) (ho : s.Observable .P obs) :
    (s.head - obs).toNat = (s.tail - obs).toNat + (s.head - s.tail).toNat ∧
      (s.head - obs).toNat ≤ s.capacity.toNat := by
  obtain ⟨-, -, ⟨seen, -⟩, -⟩ := hi
  have cap := s.capacity_le
  have split := toNat_sub_add_toNat_sub_of_le _ _ _ ho
  simp only [State.seen_P, State.peer_P] at split
  have order : (s.head - obs).toNat = (s.tail - obs).toNat + (s.head - s.tail).toNat :=
    toNat_sub_trans _ _ _ (by omega)
  exact ⟨order, by omega⟩

/-- `TAIL`, a `HEAD` the consumer may observe and `HEAD` stand in this order (item 5). -/
theorem State.Inv.observed_C (hi : s.Inv) (ho : s.Observable .C obs) :
    (obs - s.tail).toNat + (s.head - obs).toNat = (s.head - s.tail).toNat := by
  obtain ⟨-, -, -, seen, -⟩ := hi
  have toSeen := toNat_sub_add_toNat_sub_of_le _ _ _ seen
  have split := toNat_sub_add_toNat_sub_of_le _ _ _ ho
  simp only [State.seen_C, State.peer_C] at split
  have bound := (s.head - s.tail).isLt
  have order : (obs - s.tail).toNat = (s.cHeadSeen - s.tail).toNat + (obs - s.cHeadSeen).toNat :=
    toNat_sub_trans _ _ _ (by omega)
  omega

/-! ### Every move keeps the invariants -/

/-- Opening and closing a transaction: the guard goes with it, and nothing is pending. -/
theorem State.Inv.setTx (hi : s.Inv) (sd : Side) (v : Bool) :
    (((s.setPending sd 0).setGuard sd v).setInTx sd v).Inv := by
  obtain ⟨count, ⟨wb, rb, pIdle, cIdle⟩, ⟨pSeen, pWin⟩, ⟨cSeen, cWin⟩⟩ := hi
  cases sd with
  | P => exact ⟨count, ⟨rfl, rb, fun _ => rfl, cIdle⟩, ⟨pSeen, Nat.le_of_add_right_le pWin⟩, ⟨cSeen, cWin⟩⟩
  | C => exact ⟨count, ⟨wb, rfl, pIdle, fun _ => rfl⟩, ⟨pSeen, pWin⟩, ⟨cSeen, Nat.zero_le _⟩⟩

/-- Serving bytes: the window may grow to what fits for an observable counter, which becomes the snapshot. -/
theorem State.Inv.reserve (hi : s.Inv) (inTx : s.inTx sd = true) (ho : s.Observable sd obs) (hn : s.Fits sd obs n) :
    ((s.setPending sd n).setSeen sd obs).Inv := by
  cases sd with
  | P =>
    obtain ⟨order, inside⟩ := hi.observed_P ho
    obtain ⟨count, ⟨wb, rb, -, cIdle⟩, -, consumer⟩ := hi
    exact ⟨count, ⟨wb, rb, fun idle => Bool.noConfusion (inTx.symm.trans idle), cIdle⟩, ⟨order ▸ inside, hn⟩, consumer⟩
  | C =>
    have order := hi.observed_C ho
    obtain ⟨count, ⟨wb, rb, pIdle, -⟩, producer, -⟩ := hi
    have seen : (obs - s.tail).toNat ≤ (s.head - s.tail).toNat := by omega
    exact ⟨count, ⟨wb, rb, pIdle, fun idle => Bool.noConfusion (inTx.symm.trans idle)⟩, producer, ⟨seen, hn⟩⟩

/-- `HEAD` moves on into free space, with nothing left pending. -/
theorem State.Inv.release_P (hi : s.Inv) (idle : s.pPending = 0) (ho : s.Observable .P obs)
    (hn : s.Fits .P obs n) : ((s.incOwn .P n).setSeen .P obs).Inv := by
  have cap := s.capacity_le
  obtain ⟨order, inside⟩ := hi.observed_P ho
  obtain ⟨-, tx, -, ⟨cSeen, cWin⟩⟩ := hi
  have fits : (s.head - obs).toNat + n.toNat ≤ s.capacity.toNat := hn
  have fromTail : (s.head + n - s.tail).toNat = (s.head - s.tail).toNat + n.toNat := toNat_add_sub _ _ _ (by omega)
  have fromObs : (s.head + n - obs).toNat = (s.head - obs).toNat + n.toNat := toNat_add_sub _ _ _ (by omega)
  have count' : (s.head + n - s.tail).toNat ≤ s.capacity.toNat := by omega
  have pSeen' : (s.tail - obs).toNat + (s.head + n - s.tail).toNat ≤ s.capacity.toNat := by omega
  have pWin' : (s.head + n - obs).toNat + s.pPending.toNat ≤ s.capacity.toNat := by simpa [idle, fromObs] using fits
  have cSeen' : (s.cHeadSeen - s.tail).toNat ≤ (s.head + n - s.tail).toNat := by omega
  exact ⟨count', tx, ⟨pSeen', pWin'⟩, ⟨cSeen', cWin⟩⟩

/-- `TAIL` moves on over committed data, with nothing left pending. -/
theorem State.Inv.release_C (hi : s.Inv) (idle : s.cPending = 0) (ho : s.Observable .C obs)
    (hn : s.Fits .C obs n) : ((s.incOwn .C n).setSeen .C obs).Inv := by
  have cap := s.capacity_le
  have order := hi.observed_C ho
  obtain ⟨-, tx, ⟨pSeen, pWin⟩, -⟩ := hi
  have fits : n.toNat ≤ (obs - s.tail).toNat := hn
  have toHead : (s.head - (s.tail + n)).toNat = (s.head - s.tail).toNat - n.toNat := toNat_sub_add _ _ _ (by omega)
  have toObs : (obs - (s.tail + n)).toNat = (obs - s.tail).toNat - n.toNat := toNat_sub_add _ _ _ fits
  have fromSeen : (s.tail + n - s.pTailSeen).toNat = (s.tail - s.pTailSeen).toNat + n.toNat :=
    toNat_add_sub _ _ _ (by omega)
  have count' : (s.head - (s.tail + n)).toNat ≤ s.capacity.toNat := by omega
  have pSeen' : (s.tail + n - s.pTailSeen).toNat + (s.head - (s.tail + n)).toNat ≤ s.capacity.toNat := by omega
  have cSeen' : (obs - (s.tail + n)).toNat ≤ (s.head - (s.tail + n)).toNat := by omega
  have cWin' : s.cPending.toNat ≤ (obs - (s.tail + n)).toNat := by simp [idle]
  exact ⟨count', tx, ⟨pSeen', pWin⟩, ⟨cSeen', cWin'⟩⟩

/-- Releasing the counter of an idle side past bytes that fit for an observable counter, which becomes the snapshot. -/
theorem State.Inv.release (hi : s.Inv) (idle : s.inTx sd = false) (ho : s.Observable sd obs) (hn : s.Fits sd obs n) :
    ((s.incOwn sd n).setSeen sd obs).Inv := by
  have empty := hi.pending_of_idle idle
  cases sd with
  | P => exact hi.release_P empty ho hn
  | C => exact hi.release_C empty ho hn

/-- `COMMIT` is `CANCEL` with the counter released. -/
theorem State.incOwn_closeTx (s : State) (sd : Side) (n : Word) :
    (s.incOwn sd n).closeTx sd = ((s.closeTx sd).incOwn sd n).setSeen sd (s.seen sd) := by
  cases sd <;> rfl

/-- `COMMIT` (R144, R164). -/
theorem State.Inv.commit (hi : s.Inv) (sd : Side) : ((s.incOwn sd (s.pending sd)).closeTx sd).Inv := by
  have closed : (s.closeTx sd).Inv := hi.setTx sd false
  have idle : (s.closeTx sd).inTx sd = false := by cases sd <;> rfl
  have seen : (s.closeTx sd).Observable sd (s.seen sd) := by
    have := s.observable_seen sd
    cases sd <;> exact this
  have fits : (s.closeTx sd).Fits sd (s.seen sd) (s.pending sd) := by
    have := hi.fits_pending sd
    cases sd <;> exact this
  rw [s.incOwn_closeTx]
  exact closed.release idle seen fits

theorem State.Moves.inv (hi : s.Inv) (h : s.Moves sd u) : u.Inv := by
  cases h with
  | none => exact hi
  | misuse => exact hi
  | opened =>
    have opened := hi.setTx sd true
    cases sd <;> exact opened
  | served n inTx room => exact hi.reserve inTx (s.observable_readPeer sd) room.fits
  | published => exact hi.commit sd
  | cancelled => exact hi.setTx sd false
  | copied n idle free room =>
    have fits : s.Fits sd (s.readPeer sd) n := by simpa [hi.pending_of_idle idle] using room.fits
    exact hi.release idle (s.observable_readPeer sd) fits

theorem State.Does.inv (hi : s.Inv) (h : s.Does sd u) : u.Inv := by
  obtain ⟨v, m, r, moves, -, rfl⟩ := h
  exact (moves.inv hi : v.Inv)

end

/-- Settles O41: reset meets the invariants, and so does whatever a command can do from them. -/
theorem stepKeepsTheInvariants : Obligations.StepKeepsTheInvariants := by
  intro s t hi h
  rcases step_does s t h with rfl | rfl | ⟨f, sd, fetched, does⟩
  · exact .applyReset s
  · exact hi
  · exact does.inv (State.inv_fetch hi fetched)

end Sys2Proof.Machine
end

section
/-! SUPPORT. The data RAM, the reserved bits of `FAULT` and the build parameters over a step. -/

namespace Sys2Proof.Machine

/-- What a command stores is canonical and inside `CAPACITY` (spec/20_memory.md R50, R53). -/
theorem State.Stores.wf_within {s : State} {sd : Side} {m : Memory} (hr : s.RamInv) (h : s.Stores sd m) :
    m.wf = true ∧ m.within s.capacity.toNat = true := by
  obtain ⟨wf, within⟩ := hr
  cases h with
  | none => exact ⟨wf, within⟩
  | window start bs => exact ⟨s.wf_writeWindow start bs 0 _ wf, s.within_writeWindow start bs 0 _ within⟩
  | byte o b legal => exact ⟨Memory.wf_write _ _ b wf, Memory.within_write _ _ _ b within legal⟩

/-- No misuse has a reserved bit (spec/10_state.md R34). -/
theorem twoPow_faultBit_reserved (sd : Side) (m : Misuse) :
    BitVec.twoPow 64 (faultBit sd m) &&& 0xFFFFFFFFFFFFF0F0#64 = 0 := by
  cases sd <;> cases m <;> decide

section
variable {s u : State} {sd : Side}

/-- A move sets at most one bit of `FAULT`, one of its side (spec/60_exceptions.md R220). -/
theorem State.Moves.fault_cases (h : s.Moves sd u) :
    u.fault = s.fault ∨ ∃ m, u.fault = s.fault ||| BitVec.twoPow 64 (faultBit sd m) := by
  cases h with
  | misuse m => exact .inr ⟨m, rfl⟩
  | none => exact .inl rfl
  | opened | served | published | cancelled | copied =>
    left
    simp [State.incOwn, State.closeTx, State.endGuard]

theorem State.Moves.faultReservedClear (hf : s.FaultReservedClear) (h : s.Moves sd u) : u.FaultReservedClear := by
  rcases h.fault_cases with eq | ⟨m, eq⟩ <;> rw [State.FaultReservedClear, eq]
  · exact hf
  · rw [BitVec.and_or_distrib_right, hf, twoPow_faultBit_reserved]
    rfl

/-- A command keeps the parameters, the form of the data RAM and the reserved bits. -/
theorem State.Does.keeps (hr : s.RamInv) (hf : s.FaultReservedClear) (h : s.Does sd u) :
    u.RamInv ∧ u.FaultReservedClear ∧ u.cfg = s.cfg := by
  obtain ⟨v, m, r, moves, stores, rfl⟩ := h
  have cfg : v.cfg = s.cfg := moves.cfg_eq
  have capacity : v.capacity = s.capacity := by rw [State.capacity, cfg, State.capacity]
  have form : m.wf = true ∧ m.within v.capacity.toNat = true := capacity ▸ stores.wf_within hr
  have fault : v.FaultReservedClear := moves.faultReservedClear hf
  exact ⟨form, fault, cfg⟩

end

theorem State.ramInv_resetWith (cfg : Config) : (State.resetWith cfg).RamInv :=
  ⟨rfl, rfl⟩

theorem State.faultReservedClear_resetWith (cfg : Config) : (State.resetWith cfg).FaultReservedClear := by
  simp [State.FaultReservedClear, State.resetWith]

/-- Taking a command touches none of the three. -/
theorem State.fetch_keeps {s : State} {f : Fetched} (h : s.fetch = some f) :
    (f.after.RamInv ↔ s.RamInv) ∧ (f.after.FaultReservedClear ↔ s.FaultReservedClear) ∧ f.after.cfg = s.cfg := by
  obtain ⟨rest, gs, left, goal, eq⟩ := s.fetch_after f h
  rw [eq]
  cases f.port <;> exact ⟨Iff.rfl, Iff.rfl, rfl⟩

/-- Settles O42, by what a command can store and which `FAULT` bits a misuse can set. -/
theorem stepKeepsRamFaultAndParameters : Obligations.StepKeepsRamFaultAndParameters := by
  intro s t hr hf h
  rcases step_does s t h with rfl | rfl | ⟨f, sd, fetched, does⟩
  · exact ⟨State.ramInv_resetWith s.cfg, State.faultReservedClear_resetWith s.cfg, rfl⟩
  · exact ⟨hr, hf, rfl⟩
  · obtain ⟨ram, fault, cfg⟩ := State.fetch_keeps fetched
    rw [← cfg]
    exact does.keeps (ram.mpr hr) (fault.mpr hf)

/-- Settles O10, the base of every run: each of the three forms at the reset values. -/
theorem resetStateMeetsTheInvariants : Obligations.ResetStateMeetsTheInvariants := fun cfg =>
  ⟨State.inv_resetWith cfg, State.ramInv_resetWith cfg, State.faultReservedClear_resetWith cfg⟩

end Sys2Proof.Machine
end

section
/-! SUPPORT. The fields of `FLAGS` (spec/10_state.md R33). -/

namespace Sys2Proof.Machine

theorem getLsbD_bitAt (b : Bool) (i k : Nat) : (bitAt b i).getLsbD k = (b && (decide (i < 64) && decide (i = k))) := by
  cases b <;> simp [bitAt, BitVec.getLsbD_twoPow]

/-- `FLAGS`, bit by bit. -/
theorem State.getLsbD_flags (s : State) (k : Nat) :
    s.flags.getLsbD k =
      (s.isEmpty && decide (0 = k) || s.isFull && decide (1 = k) || s.hasData && decide (2 = k) ||
        s.wb && decide (3 = k) || s.rb && decide (4 = k) || s.pIntx && decide (5 = k) || s.cIntx && decide (6 = k) ||
        s.isFaulted && decide (7 = k)) := by
  simp [State.flags, getLsbD_bitAt]

theorem State.getLsbD_flags_fields (s : State) :
    s.flags.getLsbD 0 = s.isEmpty ∧ s.flags.getLsbD 1 = s.isFull ∧ s.flags.getLsbD 2 = s.hasData ∧
      s.flags.getLsbD 3 = s.wb ∧ s.flags.getLsbD 4 = s.rb ∧ s.flags.getLsbD 5 = s.pIntx ∧
      s.flags.getLsbD 6 = s.cIntx ∧ s.flags.getLsbD 7 = s.isFaulted := by
  simp only [s.getLsbD_flags]
  simp

theorem State.getLsbD_flags_above (s : State) (k : Nat) (h : 8 ≤ k) : s.flags.getLsbD k = false := by
  have ne : ∀ i < 8, i ≠ k := fun i hi => by omega
  simp [s.getLsbD_flags, ne]

theorem State.isEmpty_iff (s : State) : s.isEmpty = true ↔ s.head = s.tail := by
  simp [State.isEmpty]

theorem State.isFull_iff (s : State) : s.isFull = true ↔ (s.head - s.tail).toNat = Spec.cap s := by
  rw [Spec.cap, ← s.capacity_toNat, ← BitVec.toNat_eq]
  simp [State.isFull, State.occ]

/-- Data is present when `HEAD` is ahead of `TAIL`. -/
theorem State.hasData_iff (s : State) : s.hasData = true ↔ 0 < (s.head - s.tail).toNat := by
  simp only [State.hasData, bne_iff_ne]
  bv_omega

theorem State.isFaulted_iff (s : State) : s.isFaulted = true ↔ s.fault ≠ 0 := by
  simp [State.isFaulted]

/-- An empty block is not full: `CAPACITY` is at least 1. -/
theorem State.not_isEmpty_and_isFull (s : State) : ¬ (s.isEmpty = true ∧ s.isFull = true) := by
  rw [s.isEmpty_iff, s.isFull_iff]
  rintro ⟨empty, full⟩
  have pos := s.two_pow_pos
  simp only [empty, BitVec.sub_self, BitVec.toNat_zero, Spec.cap] at full
  omega

/-- Settles O14, from the bits of `FLAGS` and what each comparator compares (R133). -/
theorem flagsRegisterFields : Obligations.FlagsRegisterFields := by
  intro s
  obtain ⟨empty, full, data, wb, rb, pIntx, cIntx, faulted⟩ := s.getLsbD_flags_fields
  rw [empty, full, data, faulted]
  exact ⟨s.isEmpty_iff, s.isFull_iff, s.hasData_iff, wb, rb, pIntx, cIntx, s.isFaulted_iff, s.getLsbD_flags_above,
    s.not_isEmpty_and_isFull⟩

end Sys2Proof.Machine
end

section
/-! SUPPORT. Windows of the data RAM as lists of bytes (spec/20_memory.md R55, R61): how they split, and what storing
and loading a window do to them. -/

namespace Sys2Proof.Machine

/-! ### Windows -/

/-- The `n` bytes a data RAM holds from logical offset `start` on, in stream order; nothing where a byte is
unwritten. -/
def Memory.window (m : Memory) (cap start n : Nat) : List (Option Byte) :=
  (List.range n).map fun i => m.read? ((start + i) % cap)

section
variable {m m' : Memory} {cap start start' n : Nat}

@[simp] theorem Memory.length_window : (m.window cap start n).length = n := by
  simp [Memory.window]

/-- Windows that read the same byte by byte are the same. -/
theorem Memory.window_congr (h : ∀ i < n, m'.read? ((start' + i) % cap) = m.read? ((start + i) % cap)) :
    m'.window cap start' n = m.window cap start n :=
  List.map_congr_left fun i hi => h i (List.mem_range.mp hi)

/-- A window depends on where it starts modulo `CAPACITY` only (spec/41_datapath.md R122). -/
theorem Memory.window_modEq (h : start' ≡ start [MOD cap]) : m.window cap start' n = m.window cap start n :=
  window_congr fun i _ => congrArg m.read? (h.add_right i)

/-- A window is the window of its first bytes followed by that of the others. -/
theorem Memory.window_add (k : Nat) :
    m.window cap start (k + n) = m.window cap start k ++ m.window cap (start + k) n := by
  simp [Memory.window, List.range_add, Nat.add_assoc]

/-- Dropping the first bytes of a window leaves the window of the others. -/
theorem Memory.drop_window {k : Nat} (h : k ≤ n) :
    (m.window cap start n).drop k = m.window cap (start + k) (n - k) := by
  obtain ⟨l, rfl⟩ := Nat.exists_eq_add_of_le h
  rw [window_add, List.drop_left' length_window, Nat.add_sub_cancel_left]

theorem Memory.read?_of_getElem?_window {i : Nat} {b : Byte} (h : (m.window cap start n)[i]? = some (some b)) :
    m.read? ((start + i) % cap) = some b := by
  simp only [Memory.window, List.getElem?_map, Option.map_eq_some_iff, List.getElem?_eq_some_iff] at h
  obtain ⟨_, ⟨_, eq⟩, read⟩ := h
  rwa [← eq, List.getElem_range] at read

/-! ### Stored bytes -/

/-- Two places of a window of at most `CAPACITY` bytes are two offsets. -/
theorem add_mod_ne {i j : Nat} (hi : i < cap) (hj : j < cap) (h : i ≠ j) : (start + i) % cap ≠ (start + j) % cap :=
  fun eq => h (((show start + i ≡ start + j [MOD cap] from eq).add_left_cancel' start).eq_of_lt_of_lt hi hj)

variable {bs : List Byte}

theorem Memory.stored_modEq (h : start' ≡ start [MOD cap]) :
    Spec.Stored m m' cap start' bs ↔ Spec.Stored m m' cap start bs := by
  have place : ∀ i, (start' + i) % cap = (start + i) % cap := h.add_right
  simp only [Spec.Stored, place]

/-- The window just stored holds the bytes stored. -/
theorem Memory.window_of_stored (h : Spec.Stored m m' cap start bs) :
    m'.window cap start bs.length = bs.map some := by
  obtain ⟨stored, -⟩ := h
  refine List.ext_getElem (by simp) fun i _ hi => ?_
  simpa [Memory.window] using stored i (by simpa using hi)

/-- Bytes stored beyond a window, within `CAPACITY` of its start, leave it as it was. -/
theorem Memory.window_of_stored_beyond {d : Nat} (h : Spec.Stored m m' cap (start + d) bs) (beyond : n ≤ d)
    (fit : d + bs.length ≤ cap) : m'.window cap start n = m.window cap start n := by
  obtain ⟨-, others⟩ := h
  refine window_congr fun i hi => others _ fun j hj => ?_
  rw [Nat.add_assoc]
  exact add_mod_ne (by omega) (by omega) (by omega)

end

/-- A byte written at an existing offset. -/
theorem Memory.stored_write (m : Memory) {cap o : Nat} (b : Byte) (h : o < cap) :
    Spec.Stored m (m.write o b) cap o [b] := by
  refine ⟨fun i hi => ?_, fun a ha => ?_⟩
  · obtain rfl : i = 0 := by simpa using hi
    simp [Nat.mod_eq_of_lt h]
  · exact m.read?_write_other o a b (by simpa [Nat.mod_eq_of_lt h] using ha 0)

/-! ### The copies of the datapath (spec/42_producer.md R146, spec/43_consumer.md R166) -/

section
variable (s : State) (start : Word)

theorem State.read?_writeWindow_other (bs : List Byte) (i : Nat) (m : Memory) (a : Nat)
    (h : ∀ j < bs.length, a ≠ (start.toNat + (i + j)) % Spec.cap s) :
    (s.writeWindow start i bs m).read? a = m.read? a := by
  induction bs generalizing i m with
  | nil => rfl
  | cons b bs ih =>
    have later : ∀ j < bs.length, a ≠ (start.toNat + (i + 1 + j)) % Spec.cap s := fun j hj => by
      rw [Nat.add_assoc i, Nat.add_comm 1]
      exact h (j + 1) (by simpa using hj)
    rw [State.writeWindow, ih _ _ later, Memory.read?_write_other]
    rw [s.segAddr_toNat]
    exact h 0 (by simp)

theorem State.read?_writeWindow_same (bs : List Byte) (i : Nat) (m : Memory) (fit : i + bs.length ≤ Spec.cap s)
    (j : Nat) (hj : j < bs.length) :
    (s.writeWindow start i bs m).read? ((start.toNat + (i + j)) % Spec.cap s) = some bs[j] := by
  induction bs generalizing i m j with
  | nil => simp at hj
  | cons b bs ih =>
    simp only [List.length_cons] at fit hj
    rw [State.writeWindow]
    cases j with
    | zero =>
      rw [s.read?_writeWindow_other start bs (i + 1) _ _ fun k hk => add_mod_ne (by omega) (by omega) (by omega),
        s.segAddr_toNat]
      exact Memory.read?_write_same _ _ _
    | succ j =>
      have := ih (i + 1) (m.write (s.segAddr start i).toNat b) (by omega) j (by omega)
      rwa [Nat.add_right_comm] at this

/-- The copy of a write command stores its bytes in the window. -/
theorem State.stored_writeWindow (bs : List Byte) (m : Memory) (fit : bs.length ≤ Spec.cap s) :
    Spec.Stored m (s.writeWindow start 0 bs m) (Spec.cap s) start.toNat bs := by
  refine ⟨fun i hi => ?_, fun a ha => ?_⟩
  · simpa using s.read?_writeWindow_same start bs 0 m (by omega) i hi
  · exact s.read?_writeWindow_other start bs 0 m a (by simpa using ha)

/-- The copy of a read command loads the bytes of the window. -/
theorem State.loaded_copyOut (n : Nat) : Spec.Loaded s.ram (Spec.cap s) start.toNat n (s.copyOut start n) := by
  refine ⟨by simp [State.copyOut], fun i b hi read => ?_⟩
  rw [← s.segAddr_toNat] at read
  simp [State.copyOut, State.memRead, hi, read]

end

end Sys2Proof.Machine
end

section
/-! SUPPORT. What the checks and the atomic copies answer, said once (spec/42_producer.md R148, spec/43_consumer.md
R168). -/

namespace Sys2Proof.Machine

section
variable (s : State) (sd : Side) (k : State)

theorem State.withTx_cases :
    (s.inTx sd = true ∧ s.withTx sd k = k) ∨
      (s.inTx sd = false ∧ s.withTx sd k = s.fail sd .noTransaction (some .noTx)) := by
  cases h : s.inTx sd with
  | true => exact .inl ⟨rfl, s.withTx_open sd k h⟩
  | false => exact .inr ⟨rfl, s.withTx_idle sd k h⟩

/-- The check for an idle side lets the command through, or fails it. -/
theorem State.withIdle_cases :
    (s.inTx sd = false ∧ s.guard sd = false ∧ s.withIdle sd k = k) ∨
      ∃ st misuse, st ≠ .ok ∧ s.withIdle sd k = s.fail sd st misuse := by
  cases open_ : s.inTx sd with
  | true => exact .inr ⟨.busy, some .busy, by decide, by simp [State.withIdle, open_]⟩
  | false =>
    cases held : s.guard sd with
    | true => exact .inr ⟨.wouldBlock, none, by decide, by simp [State.withIdle, open_, held]⟩
    | false => exact .inl ⟨rfl, rfl, s.withIdle_idle sd k open_ held⟩

end

section
variable {s t : State} {size : Word} {payload : List Byte}

/-- A well-formed `P.WRITE.ATOMIC` fails, or is asked for nothing, or copies its payload and publishes it. -/
theorem exec_pWriteAtomic_cases (fits : payload.length = size.toNat)
    (h : exec (.pWriteAtomic size payload) s = .next t) :
    (∃ st misuse, st ≠ .ok ∧ t = s.fail .P st misuse) ∨
      (size = 0 ∧ t = s.respond .P (.ok 0)) ∨
      (s.inTx .P = false ∧ s.HasRoom .P size ∧
        t = (((s.copyIn (s.head &&& s.mask) payload).incOwn .P size).setSeen .P (s.readPeer .P)).respond .P
          (.ok size)) := by
  simp only [exec, execPWriteAtomic, s.withPayload_fits _ _ _ _ fits, Host.Outcome.next.injEq] at h
  rcases s.withIdle_cases .P (s.writeAtomic size payload) with ⟨idle, -, eq⟩ | ⟨st, misuse, ne, eq⟩ <;>
    rw [eq] at h
  · simp only [State.writeAtomic] at h
    split at h
    next => exact .inl ⟨_, _, by decide, h.symm⟩
    next arith =>
      split at h
      next => exact .inl ⟨_, _, by decide, h.symm⟩
      next avail =>
        split at h
        next zero => exact .inr (.inl ⟨zero, h.symm⟩)
        next => exact .inr (.inr ⟨idle, ⟨Bool.eq_false_of_not_eq_true arith, BitVec.not_lt.mp avail⟩, h.symm⟩)
  · exact .inl ⟨st, misuse, ne, h.symm⟩

/-- `C.READ.ATOMIC` fails, or is asked for nothing, or copies the front of the stream out and consumes it. -/
theorem exec_cReadAtomic_cases (h : exec (.cReadAtomic size) s = .next t) :
    (∃ st misuse, t = s.fail .C st misuse) ∨
      (size = 0 ∧ t = s.respond .C (.ok 0)) ∨
      (s.inTx .C = false ∧ s.HasRoom .C size ∧
        t = ((s.incOwn .C size).setSeen .C (s.readPeer .C)).respond .C
          { Response.ok size with rbytes := s.copyOut (s.tail &&& s.mask) size.toNat }) := by
  simp only [exec, execCReadAtomic, Host.Outcome.next.injEq] at h
  rcases s.withIdle_cases .C (s.readAtomic size) with ⟨idle, -, eq⟩ | ⟨st, misuse, -, eq⟩ <;> rw [eq] at h
  · simp only [State.readAtomic] at h
    split at h
    next => exact .inl ⟨_, _, h.symm⟩
    next arith =>
      split at h
      next => exact .inl ⟨_, _, h.symm⟩
      next avail =>
        split at h
        next zero => exact .inr (.inl ⟨zero, h.symm⟩)
        next => exact .inr (.inr ⟨idle, ⟨Bool.eq_false_of_not_eq_true arith, BitVec.not_lt.mp avail⟩, h.symm⟩)
  · exact .inl ⟨st, misuse, h.symm⟩

end

/-! ### The answer of a command -/

section
variable {s : State} {sd : Side} {r r' : Response}

/-- A command's answer is the one response it adds. -/
theorem State.respond_answer {u : State} (kept : u.responses = s.responses)
    (h : (u.respond sd r').responses = s.responses ++ [(sd, r)]) : r = r' := by
  simpa [kept, eq_comm] using h

theorem State.fail_answer {st : Status} {misuse : Option Misuse}
    (h : (s.fail sd st misuse).responses = s.responses ++ [(sd, r)]) : r = .failure st := by
  cases misuse with
  | none => exact respond_answer (by rfl) h
  | some m => exact respond_answer (by rfl) h

/-- The segment fields leave the others as they are. -/
theorem Response.withSegs_fields (r : Response) (segs : List Segment) :
    (r.withSegs segs).status = r.status ∧ (r.withSegs segs).n = r.n ∧ (r.withSegs segs).rbytes = r.rbytes := by
  unfold Response.withSegs
  split <;> exact ⟨rfl, rfl, rfl⟩

end

end Sys2Proof.Machine
end

section
/-! SUPPORT. The committed stream (spec/20_memory.md R61) as a window of the data RAM: every command leaves it as it was
but the commits and the atomic copies, which append at `HEAD` and remove at `TAIL`. -/

namespace Sys2Proof.Machine

/-! ### The stream as a window -/

section
variable (s : State)

theorem State.committed_eq_window : s.committed = s.ram.window (Spec.cap s) s.tail.toNat s.occ.toNat := by
  simp only [State.committed, s.segAddr_toNat, Memory.window]

theorem State.pendingBytes_eq_window : s.pendingBytes = s.ram.window (Spec.cap s) s.head.toNat s.pPending.toNat := by
  simp only [State.pendingBytes, s.segAddr_toNat, Memory.window]

theorem State.cap_eq : Spec.cap s = s.capacity.toNat := s.capacity_toNat.symm

/-- A sum of counters names the offset of the sum of their numbers (spec/41_datapath.md R122). -/
theorem State.toNat_add_modEq (x y : Word) : (x + y).toNat ≡ x.toNat + y.toNat [MOD Spec.cap s] := by
  rw [BitVec.toNat_add]
  exact Nat.mod_mod_of_dvd _ s.two_pow_dvd

theorem State.and_mask_modEq (x : Word) : (x &&& s.mask).toNat ≡ x.toNat [MOD Spec.cap s] := by
  rw [s.and_mask_toNat]
  exact Nat.mod_modEq _ _

/-- `Start(s)` names the offset of the side's counter and its pending bytes (R122). -/
theorem State.start_modEq (sd : Side) :
    (s.start sd).toNat ≡ (s.own sd).toNat + (s.pending sd).toNat [MOD Spec.cap s] :=
  (s.and_mask_modEq _).trans (s.toNat_add_modEq _ _)

/-- The stream ends where `HEAD` stands. -/
theorem State.head_modEq : s.head.toNat ≡ s.tail.toNat + s.occ.toNat [MOD Spec.cap s] := by
  simpa [State.occ] using s.toNat_add_modEq s.tail s.occ

end

section
variable {s t : State}

/-- Bytes stored in free space, from the `k`-th byte beyond `HEAD` on, are no part of the stream. -/
theorem State.committed_of_stored {start k : Nat} {bs : List Byte} (cfg : t.cfg = s.cfg) (head : t.head = s.head)
    (tail : t.tail = s.tail) (stored : Spec.Stored s.ram t.ram (Spec.cap s) start bs)
    (place : start ≡ s.head.toNat + k [MOD Spec.cap s]) (free : s.occ.toNat + k + bs.length ≤ Spec.cap s) :
    t.committed = s.committed := by
  have fromTail : start ≡ s.tail.toNat + (s.occ.toNat + k) [MOD Spec.cap s] := by
    rw [← Nat.add_assoc]
    exact place.trans (s.head_modEq.add_right k)
  have kept := Memory.window_of_stored_beyond ((Memory.stored_modEq fromTail).mp stored) (Nat.le_add_right _ _) free
  simpa only [State.committed_eq_window, State.occ, Spec.cap, cfg, head, tail] using kept

/-- `HEAD` moving on by `n` appends the `n` bytes that stand beyond it. -/
theorem State.committed_append {n : Word} (cfg : t.cfg = s.cfg) (head : t.head = s.head + n) (tail : t.tail = s.tail)
    (free : s.occ.toNat + n.toNat ≤ Spec.cap s) :
    t.committed = t.ram.window (Spec.cap s) s.tail.toNat s.occ.toNat ++
      t.ram.window (Spec.cap s) s.head.toNat n.toNat := by
  have cap := s.two_pow_le
  have occ : t.occ.toNat = s.occ.toNat + n.toNat := by
    rw [State.occ, head, tail]
    exact toNat_add_sub _ _ _ (by simp only [State.occ, Spec.cap] at free; omega)
  rw [State.committed_eq_window, occ, Memory.window_add, Spec.cap, cfg, tail]
  exact congrArg _ (Memory.window_modEq s.head_modEq.symm)

/-- `TAIL` moving on by `n` removes the first `n` bytes. -/
theorem State.committed_drop {n : Word} (cfg : t.cfg = s.cfg) (head : t.head = s.head) (tail : t.tail = s.tail + n)
    (ram : t.ram = s.ram) (le : n.toNat ≤ s.occ.toNat) : t.committed = s.committed.drop n.toNat := by
  have occ : t.occ.toNat = s.occ.toNat - n.toNat := by
    rw [State.occ, head, tail]
    exact toNat_sub_add _ _ _ le
  rw [s.committed_eq_window, Memory.drop_window le, State.committed_eq_window, occ, Spec.cap, cfg, tail, ram]
  exact Memory.window_modEq (s.toNat_add_modEq _ _)

/-! ### The space the invariants leave -/

/-- Bytes that fit for a `TAIL` the producer may observe lie in free space (spec/10_state.md R37 item 4). -/
theorem State.Inv.free_of_fits {obs n : Word} (hi : s.Inv) (ho : s.Observable .P obs) (hn : s.Fits .P obs n) :
    s.occ.toNat + n.toNat ≤ Spec.cap s := by
  obtain ⟨order, -⟩ := hi.observed_P ho
  simp only [State.Fits] at hn
  rw [s.cap_eq, State.occ]
  omega

/-- Bytes that fit for a `HEAD` the consumer may observe are committed (R37 item 5). -/
theorem State.Inv.committed_of_fits {obs n : Word} (hi : s.Inv) (ho : s.Observable .C obs) (hn : s.Fits .C obs n) :
    n.toNat ≤ s.occ.toNat := by
  have order := hi.observed_C ho
  simp only [State.Fits] at hn
  rw [State.occ]
  omega

/-- Bytes there is room for add up with the pending ones without a wrap. -/
theorem State.HasRoom.toNat_pending_add {sd : Side} {n : Word} (h : s.HasRoom sd n) :
    (s.pending sd + n).toNat = (s.pending sd).toNat + n.toNat := by
  obtain ⟨arith, avail⟩ := h
  cases sd with
  | P =>
    simp only [State.arithBad, State.avail, State.pAvail, decide_eq_false_iff_not] at arith avail
    simp only [State.pending_P]
    bv_omega
  | C =>
    simp only [State.arithBad, State.avail, State.cAvail, Bool.or_eq_false_iff, decide_eq_false_iff_not] at arith avail
    simp only [State.pending_C]
    bv_omega

/-- Bytes the producer has room for lie in free space behind those already pending. -/
theorem State.Inv.free_of_room {n : Word} (hi : s.Inv) (room : s.HasRoom .P n) :
    s.occ.toNat + (s.pPending.toNat + n.toNat) ≤ Spec.cap s :=
  room.toNat_pending_add ▸ hi.free_of_fits (s.observable_readPeer .P) room.fits

theorem State.Inv.free_of_pending (hi : s.Inv) : s.occ.toNat + s.pPending.toNat ≤ Spec.cap s :=
  hi.free_of_fits (s.observable_seen .P) (hi.fits_pending .P)

end

/-! ### Commands that leave the stream as it was -/

section
variable (s : State) (sd : Side)

theorem State.committed_fail (st : Status) (misuse : Option Misuse) : (s.fail sd st misuse).committed = s.committed := by
  cases misuse <;> rfl

variable {s sd} {k : State}

theorem State.committed_withTx (h : s.inTx sd = true → k.committed = s.committed) :
    (s.withTx sd k).committed = s.committed := by
  rcases s.withTx_cases sd k with ⟨inTx, eq⟩ | ⟨-, eq⟩ <;> rw [eq]
  · exact h inTx
  · exact s.committed_fail sd _ _

theorem State.committed_withOffset {o : Word} (h : o < s.capacity → k.committed = s.committed) :
    (s.withOffset sd o k).committed = s.committed := by
  unfold State.withOffset
  split
  next => exact s.committed_fail sd _ _
  next legal => exact h (BitVec.not_le.mp legal)

variable (s sd)

theorem State.committed_startTx : (s.startTx sd).committed = s.committed := by
  unfold State.startTx
  split
  next => exact s.committed_fail sd _ _
  next =>
    rcases s.beginGuard_cases sd with ⟨-, begun⟩ | ⟨-, begun⟩ <;> rw [begun]
    · exact s.committed_fail sd _ _
    · cases sd <;> rfl

theorem State.committed_accessCore (size : Word) (ap : Bool) :
    (s.accessCore sd size ap).after.committed = s.committed := by
  rcases s.accessCore_cases sd size ap with ⟨-, eq⟩ | ⟨-, -, -, eq⟩ | ⟨-, -, -, eq⟩ | ⟨-, -, -, -, eq⟩ <;> rw [eq]
  · rfl
  · cases sd <;> rfl

theorem State.committed_cancelTx : (s.cancelTx sd).committed = s.committed :=
  committed_withTx fun _ => by cases sd <;> rfl

theorem State.committed_readTx (size : Word) (ap : Bool) : (s.readTx size ap).committed = s.committed := by
  simp only [State.readTx]
  split <;> exact s.committed_accessCore .C size ap

theorem State.committed_readReg (reg : BitVec 8) : (s.readReg sd reg).committed = s.committed := by
  unfold State.readReg
  split
  · exact s.committed_fail sd _ _
  · rfl

end

section
variable {s : State}

/-- Bytes served to the producer and copied in land behind the pending ones, in free space (spec/42_producer.md
R146). -/
theorem State.Inv.committed_served (hi : s.Inv) {n obs : Word} (room : s.HasRoom .P n) {bs : List Byte}
    (short : bs.length ≤ n.toNat) :
    (((s.setPending .P (s.pending .P + n)).setSeen .P obs).copyIn (s.start .P) bs).committed = s.committed := by
  have free := hi.free_of_room room
  have fit : bs.length ≤ Spec.cap s := by omega
  exact committed_of_stored rfl rfl rfl (State.stored_writeWindow _ _ _ _ fit) (s.start_modEq .P)
    (by rw [State.pending_P]; omega)

theorem State.Inv.committed_writeTx (hi : s.Inv) (size : Word) (payload : List Byte) (ap : Bool) :
    (s.writeTx size payload ap).committed = s.committed := by
  simp only [State.writeTx]
  rcases s.accessCore_cases .P size ap with
    ⟨-, eq⟩ | ⟨-, -, -, eq⟩ | ⟨-, -, -, eq⟩ | ⟨arith, -, -, -, eq⟩ <;> simp only [eq]
  · rfl
  · rfl
  · rfl
  · exact hi.committed_served ⟨arith, minWord_le_right size _⟩ (List.length_take_le _ _)

/-- An offset of the producer's window is beyond `HEAD` by less than the pending count (spec/41_datapath.md R131). -/
theorem State.place_of_pWin {o : Word} (inside : s.pWin o = true) :
    ∃ k < s.pPending.toNat, o.toNat ≡ s.head.toNat + k [MOD Spec.cap s] := by
  refine ⟨((o - s.head) &&& s.mask).toNat, of_decide_eq_true inside, ?_⟩
  calc o.toNat ≡ s.head.toNat + (o - s.head).toNat [MOD Spec.cap s] := by
        simpa using s.toNat_add_modEq s.head (o - s.head)
    _ ≡ s.head.toNat + ((o - s.head) &&& s.mask).toNat [MOD Spec.cap s] := (s.and_mask_modEq _).symm.add_left _

/-- `DWRITE` stores in the open window, which is free space (spec/42_producer.md R149). -/
theorem State.Inv.committed_pDwrite (hi : s.Inv) {o : Word} (b : Byte) (legal : o < s.capacity) :
    (if s.pWin o then (s.memWrite o b).respond .P (.ok 1)
      else s.fail .P .invalidArgument (some .window)).committed = s.committed := by
  split
  next inside =>
    obtain ⟨k, hk, place⟩ := s.place_of_pWin inside
    have free := hi.free_of_pending
    have stored := s.ram.stored_write b (cap := Spec.cap s) (by rw [s.cap_eq]; exact legal)
    exact committed_of_stored rfl rfl rfl stored place (by simp; omega)
  next => exact s.committed_fail .P _ _

/-! ### Commands that append or remove -/

/-- `P.COMMIT` appends the open window (spec/42_producer.md R144). -/
theorem State.Inv.committed_pCommit (hi : s.Inv) : (s.commitTx .P).committed = s.committed ++ s.pendingBytes := by
  unfold State.commitTx
  rcases s.withTx_cases .P _ with ⟨-, eq⟩ | ⟨idle, eq⟩ <;> rw [eq]
  · rw [s.committed_eq_window, s.pendingBytes_eq_window]
    exact committed_append rfl rfl rfl hi.free_of_pending
  · have none : s.pPending = 0 := hi.pending_of_idle idle
    rw [s.committed_fail, s.pendingBytes_eq_window, none]
    exact (List.append_nil _).symm

/-- `C.COMMIT` removes the pending count from the front (spec/43_consumer.md R164). -/
theorem State.Inv.committed_cCommit (hi : s.Inv) : (s.commitTx .C).committed = s.committed.drop s.cPending.toNat := by
  unfold State.commitTx
  rcases s.withTx_cases .C _ with ⟨-, eq⟩ | ⟨idle, eq⟩ <;> rw [eq]
  · exact committed_drop rfl rfl rfl rfl (hi.committed_of_fits (s.observable_seen .C) (hi.fits_pending .C))
  · have none : s.cPending = 0 := hi.pending_of_idle idle
    rw [s.committed_fail, none]
    rfl

/-- The bytes an atomic write copies in are those beyond `HEAD`, which `HEAD` then passes (spec/42_producer.md R148). -/
theorem State.Inv.committed_publish (hi : s.Inv) {n : Word} (obs : Word) {bs : List Byte} (room : s.HasRoom .P n)
    (fits : bs.length = n.toNat) :
    (((s.copyIn (s.head &&& s.mask) bs).incOwn .P n).setSeen .P obs).committed = s.committed ++ bs.map some := by
  have room' := hi.free_of_room room
  have free : s.occ.toNat + n.toNat ≤ Spec.cap s := by omega
  have stored := s.stored_writeWindow (s.head &&& s.mask) bs s.ram (by omega)
  have appended := Memory.window_of_stored ((Memory.stored_modEq (s.and_mask_modEq s.head)).mp stored)
  have kept : (s.copyIn (s.head &&& s.mask) bs).committed = s.committed :=
    committed_of_stored (k := 0) rfl rfl rfl stored (s.and_mask_modEq s.head) (by omega)
  rw [← kept, (s.copyIn _ bs).committed_eq_window, ← appended, fits]
  exact committed_append rfl rfl rfl free

/-- `P.WRITE.ATOMIC` appends its payload when it answers `Ok`, and nothing otherwise (R148). -/
theorem State.Inv.committed_pWriteAtomic (hi : s.Inv) {t : State} {size : Word} {payload : List Byte} {r : Response}
    (fits : payload.length = size.toNat) (h : exec (.pWriteAtomic size payload) s = .next t)
    (answer : t.responses = s.responses ++ [(.P, r)]) :
    t.committed = s.committed ++ (if r.status = .ok then payload.map some else []) := by
  rcases exec_pWriteAtomic_cases fits h with ⟨st, misuse, ne, rfl⟩ | ⟨zero, rfl⟩ | ⟨-, room, rfl⟩
  · rw [fail_answer answer, if_neg (by exact ne), s.committed_fail, List.append_nil]
  · obtain rfl : payload = [] := List.eq_nil_of_length_eq_zero (by rw [fits, zero]; rfl)
    rw [List.map_nil, ite_self, List.append_nil]
    rfl
  · rw [respond_answer (by rfl) answer, if_pos (by rfl)]
    exact hi.committed_publish (s.readPeer .P) room fits

/-- `C.READ.ATOMIC` removes the count it answers from the front (spec/43_consumer.md R168). -/
theorem State.Inv.committed_cReadAtomic (hi : s.Inv) {t : State} {size : Word} {r : Response}
    (h : exec (.cReadAtomic size) s = .next t) (answer : t.responses = s.responses ++ [(.C, r)]) :
    t.committed = s.committed.drop r.n.toNat := by
  rcases exec_cReadAtomic_cases h with ⟨st, misuse, rfl⟩ | ⟨-, rfl⟩ | ⟨idle, room, rfl⟩
  · rw [fail_answer answer, s.committed_fail]
    rfl
  · rw [respond_answer (by rfl) answer]
    rfl
  · rw [respond_answer (by rfl) answer]
    have fits : s.Fits .C (s.readPeer .C) size := by simpa [hi.pending_of_idle idle] using room.fits
    exact committed_drop rfl rfl rfl rfl (hi.committed_of_fits (s.observable_readPeer .C) fits)

end

/-- Settles O49: each command by the operation it runs, over the stream as a window of the data RAM. -/
theorem committedStreamIsAQueue : Obligations.CommittedStreamIsAQueue := by
  intro i s t r hi wf h answer
  cases i
  case pWriteAtomic => exact hi.committed_pWriteAtomic (by simpa [Instr.wellFormed, payloadFits] using wf) h answer
  case cReadAtomic => exact hi.committed_cReadAtomic h answer
  all_goals injection h with h; subst h
  case pCommit => exact hi.committed_pCommit
  case cCommit => exact hi.committed_cCommit
  case pNop | cNop => rfl
  case pStart | cStart => exact s.committed_startTx _
  case pAccess | pAccessPart | cAccess | cAccessPart =>
    exact State.committed_withTx fun _ => s.committed_accessCore _ _ _
  case pCancel | cCancel => exact s.committed_cancelTx _
  case pWrite | pWritePart =>
    rw [s.withPayload_fits _ _ _ _ (by simpa [Instr.wellFormed, payloadFits] using wf)]
    exact State.committed_withTx fun _ => hi.committed_writeTx _ _ _
  case pDwrite =>
    exact State.committed_withOffset fun legal => State.committed_withTx fun _ => hi.committed_pDwrite _ legal
  case cRead | cReadPart => exact State.committed_withTx fun _ => s.committed_readTx _ _
  case cDread =>
    refine State.committed_withOffset fun _ => State.committed_withTx fun _ => ?_
    split
    · rfl
    · exact s.committed_fail .C _ _
  case pRdreg | cRdreg => exact s.committed_readReg _ _
  case pProbe | cProbe => exact State.committed_withOffset fun _ => rfl

end Sys2Proof.Machine
end

section
/-! SUPPORT. A read copies out of the committed stream (spec/20_memory.md R61, R63). -/

namespace Sys2Proof.Machine

/-- A response carries as many bytes as it counts, and they are the bytes of the committed stream from its `j`-th place
on, wherever one was written. -/
def State.ReadsFrom (s : State) (j : Nat) (r : Response) : Prop :=
  r.rbytes.length = r.n.toNat ∧
    ∀ (k : Nat) (b : Byte), k < r.n.toNat → s.committed[j + k]? = some (some b) → r.rbytes[k]? = some b

section
variable {s t : State} {r : Response} {j : Nat}

theorem State.readsFrom_of_empty (none : r.n = 0) (empty : r.rbytes = []) : s.ReadsFrom j r := by
  simp [State.ReadsFrom, none, empty]

/-- A window copied out from the offset of the stream's `j`-th place. -/
theorem State.readsFrom_of_copyOut {start : Word} (copied : r.rbytes = s.copyOut start r.n.toNat)
    (place : start.toNat ≡ s.tail.toNat + j [MOD Spec.cap s]) : s.ReadsFrom j r := by
  obtain ⟨length, loaded⟩ := s.loaded_copyOut start r.n.toNat
  rw [State.ReadsFrom, copied]
  refine ⟨length, fun k b hk byte => loaded k b hk ?_⟩
  rw [place.add_right k, Nat.add_assoc]
  rw [s.committed_eq_window] at byte
  exact Memory.read?_of_getElem?_window byte

/-- `C.READ` and `C.READ.PART` read behind the pending bytes (spec/43_consumer.md R166, R167). -/
theorem State.readsFrom_readTx {size : Word} {ap : Bool}
    (answer : (s.withTx .C (s.readTx size ap)).responses = s.responses ++ [(.C, r)]) :
    s.ReadsFrom s.cPending.toNat r := by
  rcases s.withTx_cases .C (s.readTx size ap) with ⟨-, eq⟩ | ⟨-, eq⟩ <;> rw [eq] at answer
  · simp only [State.readTx] at answer
    rcases s.accessCore_cases .C size ap with ⟨-, core⟩ | ⟨-, -, -, core⟩ | ⟨-, -, -, core⟩ | ⟨-, -, -, -, core⟩ <;>
      simp only [core] at answer <;> rw [respond_answer (by rfl) answer]
    · exact readsFrom_of_empty rfl rfl
    · exact readsFrom_of_empty rfl rfl
    · exact readsFrom_of_empty rfl rfl
    · refine readsFrom_of_copyOut (start := s.start .C) ?_ (s.start_modEq .C)
      obtain ⟨-, n, -⟩ := Response.withSegs_fields (Response.plain .ok (minWord size (s.avail .C (s.readPeer .C))))
        (s.geometry (s.start .C) (minWord size (s.avail .C (s.readPeer .C))))
      simp only [Access.response, n]
      rfl
  · rw [fail_answer answer]
    exact readsFrom_of_empty rfl rfl

/-- `C.READ.ATOMIC` reads from the front (spec/43_consumer.md R168). -/
theorem readsFrom_cReadAtomic {size : Word} (h : exec (.cReadAtomic size) s = .next t)
    (answer : t.responses = s.responses ++ [(.C, r)]) : s.ReadsFrom 0 r := by
  rcases exec_cReadAtomic_cases h with ⟨st, misuse, rfl⟩ | ⟨-, rfl⟩ | ⟨-, -, rfl⟩
  · rw [State.fail_answer answer]
    exact State.readsFrom_of_empty rfl rfl
  · rw [State.respond_answer (by rfl) answer]
    exact State.readsFrom_of_empty rfl rfl
  · rw [State.respond_answer (by rfl) answer]
    exact State.readsFrom_of_copyOut rfl (s.and_mask_modEq s.tail)

end

/-- Settles O50: each read copies the window of the stream that starts at its place. -/
theorem readsReturnTheCommittedBytes : Obligations.ReadsReturnTheCommittedBytes := by
  intro s t size r _
  refine ⟨fun h answer => ?_, fun h answer => ?_⟩
  · rcases h with h | h <;> injection h with h <;> subst h <;> exact State.readsFrom_readTx answer
  · simpa only [State.ReadsFrom, Nat.zero_add] using readsFrom_cReadAtomic h answer

end Sys2Proof.Machine
end

section
/-! SUPPORT. What taking a command and running it leave of the queues, and the one response it gets (spec/20_memory.md
R60, spec/30_encoding.md R70). -/

namespace Sys2Proof.Machine

/-! ### The port of a decoded command -/

/-- A row of the opcode map is selected for its own side (spec/30_encoding.md R88). -/
theorem side_of_selectRow {side : Side} {op : Nat} {ap : Bool} {reg : BitVec 8} {c : Command} {i : Instr}
    (h : selectRow side op ap reg c = .instr i) : i.side = side := by
  unfold selectRow at h
  split at h <;> cases h <;> rfl

/-- A word that decodes has passed every check of R80 and is a row of its port. -/
theorem selectRow_of_decodeWord {port : Side} {c : Command} {i : Instr} (h : decodeWord port c = .instr i) :
    selectRow port (fieldOp c.word).toNat (fieldAp c.word) (fieldReg c.word) c = .instr i := by
  unfold decodeWord at h
  iterate 7
    split at h
    · cases h
  exact h

theorem side_of_decode {port : Side} {c : Command} {i : Instr} (h : decode port c = .instr i) : i.side = port := by
  unfold decode at h
  split at h
  next => cases h
  next j word =>
    split at h
    · cases h
      exact side_of_selectRow (selectRow_of_decodeWord word)
    · cases h

/-! ### The queues and the responses -/

section
variable {s t u : State} {sd : Side}

/-- A move of the registers changes nothing at the ports. -/
theorem State.Moves.ports_eq (h : s.Moves sd u) :
    u.responses = s.responses ∧ u.pQueue = s.pQueue ∧ u.cQueue = s.cQueue := by
  cases h <;> simp [State.incOwn, State.closeTx, State.endGuard]

/-- A command adds one response on its port and takes nothing from a queue. -/
theorem State.Does.ports (h : s.Does sd t) :
    (∃ r, t.responses = s.responses ++ [(sd, r)]) ∧ ∀ port, t.queue port = s.queue port := by
  obtain ⟨u, m, r, moves, -, rfl⟩ := h
  obtain ⟨responses, pQueue, cQueue⟩ := moves.ports_eq
  refine ⟨⟨r, by simp [responses]⟩, fun port => ?_⟩
  cases port with
  | P => exact pQueue
  | C => exact cQueue

/-- Every command has a next state (spec/60_exceptions.md R244). -/
theorem exec_next (i : Instr) (s : State) : ∃ t, exec i s = .next t := by
  cases i <;> exact ⟨_, rfl⟩

/-- A command taken from its port is run or rejected there. -/
theorem step_of_fetch {f : Fetched} (running : s.resetIn = false) (fetched : s.fetch = some f) :
    ∃ t, step s = .next t ∧ f.after.Does f.port t := by
  rcases step_cases s with ⟨reset, -⟩ | ⟨-, none, -⟩ | ⟨g, i, -, got, decoded, eq⟩ | ⟨g, why, -, got, -, eq⟩
  · simp [running] at reset
  · simp [fetched] at none
  · obtain rfl : f = g := Option.some.inj (fetched.symm.trans got)
    obtain ⟨t, next⟩ := exec_next i f.after
    exact ⟨t, eq.trans next, side_of_decode decoded ▸ exec_does i _ t next⟩
  · obtain rfl : f = g := Option.some.inj (fetched.symm.trans got)
    exact ⟨_, eq, f.after.does_fail f.port _ _⟩

/-- Taking a command pops its port's queue. -/
theorem State.fetch_pops {f : Fetched} (fetched : s.fetch = some f) :
    ∃ rest gs left goal, s.queue f.port = f.cmd :: rest ∧ f.after = (s.take f.port rest gs).setLag f.port left goal := by
  rcases s.fetch_cases f fetched with ⟨rest, gs, port, queue, after⟩ | ⟨rest, gs, port, queue, after⟩ <;>
    obtain ⟨left, goal, planned⟩ := (s.take f.port rest gs).planRead_cases f.port f.cmd <;>
    exact ⟨rest, gs, left, goal, by rw [port]; exact queue, by rw [after, ← planned, port]⟩

theorem State.queue_take_setLag (s : State) (port : Side) (rest : List Command) (gs : List Side) (left : Nat)
    (goal : Word) :
    ((s.take port rest gs).setLag port left goal).queue port = rest ∧
      ((s.take port rest gs).setLag port left goal).queue port.other = s.queue port.other ∧
      ((s.take port rest gs).setLag port left goal).responses = s.responses := by
  cases port <;> exact ⟨rfl, rfl, rfl⟩

end

/-- Settles O6: the step takes the oldest command of the port the arbiter serves, and what runs answers there once. -/
theorem eachCommandGetsOneResponse : Obligations.EachCommandGetsOneResponse := by
  refine ⟨fun s running waiting => ?_, fun s f fetched => ?_⟩
  · obtain ⟨f, fetched⟩ : ∃ f, s.fetch = some f := by
      rw [← Option.ne_none_iff_exists', Ne, s.fetch_none]
      tauto
    obtain ⟨rest, gs, left, goal, queue, after⟩ := s.fetch_pops fetched
    obtain ⟨own, other, kept⟩ := s.queue_take_setLag f.port rest gs left goal
    obtain ⟨t, next, does⟩ := step_of_fetch running fetched
    obtain ⟨⟨r, answered⟩, queues⟩ := does.ports
    rw [← after] at own other kept
    exact ⟨f.port, f.cmd, rest, t, r, queue, next, (queues _).trans own, (queues _).trans other,
      answered.trans (by rw [kept])⟩
  · obtain ⟨rest, gs, left, goal, queue, after⟩ := s.fetch_pops fetched
    refine ⟨rest, gs, left, goal, queue, after.trans ?_⟩
    cases f.port <;> rfl

/-- Settles O5, by the equation of the step for a command that decodes. -/
theorem stepRunsTheDecodedCommand : Obligations.StepRunsTheDecodedCommand := by
  intro s f i running fetched decoded
  simp [step, running, fetched, decoded]

end Sys2Proof.Machine
end

section
/-! SUPPORT. The decoder over the number of the command word (spec/30_encoding.md R71, R80, R81), and its agreement with
the encoder and with the opcode map (R85, R88). -/

namespace Sys2Proof.Machine

/-! ### The fields of a word as numbers (R71) -/

section
variable (w : CmdWord)

theorem fieldOp_toNat : (fieldOp w).toNat = w.toNat % 16 := by simp [fieldOp]

theorem fieldAp_toNat : (fieldAp w).toNat = w.toNat / 16 % 2 := by
  simp [fieldAp, BitVec.getLsbD, Nat.toNat_testBit]

theorem fieldRes0_toNat : (fieldRes0 w).toNat = w.toNat / 32 % 4 := by simp [fieldRes0, Nat.shiftRight_eq_div_pow]

theorem sideBit_fieldSide : Spec.sideBit (fieldSide w) = w.toNat / 128 % 2 := by
  have bit : (w.getLsbD 7).toNat = w.toNat / 128 % 2 := Nat.toNat_testBit _ _
  rw [← bit, fieldSide]
  cases w.getLsbD 7 <;> rfl

theorem fieldReg_toNat : (fieldReg w).toNat = w.toNat / 256 % 256 := by simp [fieldReg, Nat.shiftRight_eq_div_pow]

theorem fieldRes1_toNat : (fieldRes1 w).toNat = w.toNat / 65536 := by
  have := w.isLt
  simp only [fieldRes1, BitVec.extractLsb'_toNat, Nat.shiftRight_eq_div_pow]
  omega

end

theorem sideBit_inj {side port : Side} : Spec.sideBit side = Spec.sideBit port ↔ side = port := by
  cases side <;> cases port <;> decide

/-- The list of R81 in the fields of the word, in the order in which R80 checks them. -/
theorem reservedWord_iff (port : Side) (w : CmdWord) :
    Spec.ReservedWord port w.toNat ↔
      (fieldRes1 w ≠ 0 ∨ fieldRes0 w ≠ 0) ∨ fieldSide w ≠ port ∨ 0xB ≤ (fieldOp w).toNat ∨
        (fieldOp w ≠ 0x7 ∧ fieldReg w ≠ 0) ∨ (fieldAp w = true ∧ ¬ (fieldOp w = 0x2 ∨ fieldOp w = 0x5)) ∨
        (fieldOp w = 0x8 ∧ port = .C) ∨ (fieldOp w = 0x9 ∧ port = .P) := by
  have ap : fieldAp w = true ↔ w.toNat / 16 % 2 = 1 := by rw [← fieldAp_toNat]; cases fieldAp w <;> decide
  simp only [Spec.ReservedWord, ap, ne_eq, ← sideBit_inj, ← BitVec.toNat_inj, sideBit_fieldSide, fieldRes1_toNat,
    fieldRes0_toNat, fieldOp_toNat, fieldReg_toNat, BitVec.ofNat_eq_ofNat, BitVec.toNat_ofNat, Nat.reducePow,
    Nat.reduceMod]
  tauto

/-! ### What the decoder does (R80) -/

/-- A word that R81 does not list passes every check, and its fields select its row. -/
theorem decodeWord_of_valid {port : Side} {c : Command} {w : CmdWord} (word : c.word = w)
    (valid : ¬ Spec.ReservedWord port w.toNat) :
    decodeWord port c = selectRow port (fieldOp w).toNat (fieldAp w) (fieldReg w) c := by
  subst word
  rw [reservedWord_iff] at valid
  unfold decodeWord
  iterate 7 rw [if_neg (by tauto)]

/-- A word that R81 lists fails one of the seven checks. -/
theorem decodeWord_of_reserved {port : Side} {c : Command} (reserved : Spec.ReservedWord port c.word.toNat) :
    ∃ why, decodeWord port c = .malformed why := by
  rw [reservedWord_iff] at reserved
  unfold decodeWord
  iterate 7
    split
    · exact ⟨_, rfl⟩
  tauto

/-- After the word, only the payload's length is checked (R77). -/
theorem decode_of_decodeWord {port : Side} {c : Command} {i : Instr} (word : decodeWord port c = .instr i) :
    decode port c = if i.wellFormed then .instr i else .malformed .payloadLength := by
  rw [decode, word]

/-! ### Register reads, whose row does not fix the `REG` field (R75) -/

/-- The number of a register read's word: the `REG` field stands above the byte that names the command. -/
theorem toNat_or_reg {low : CmdWord} (byte : low.toNat < 256) (reg : BitVec 8) :
    (low ||| reg.setWidth 32 <<< 8).toNat = low.toNat + 256 * reg.toNat := by
  have := reg.isLt
  have shifted : (reg.setWidth 32 <<< 8).toNat = reg.toNat <<< 8 := by
    simp only [BitVec.toNat_shiftLeft, BitVec.toNat_setWidth, Nat.shiftLeft_eq]
    omega
  rw [BitVec.toNat_or, shifted, Nat.or_comm, ← Nat.shiftLeft_add_eq_or_of_lt byte, Nat.shiftLeft_eq]
  omega

/-- The mask of the register reads' rows fixes the low byte and the high half of the word (R88). -/
theorem toNat_of_mask {w v : CmdWord} (h : w &&& 0xFFFF00FF = v) :
    w.toNat % 256 = v.toNat % 256 ∧ w.toNat / 65536 = v.toNat / 65536 := by
  subst h
  have := w.isLt
  have mask : (0xFFFF00FF : CmdWord).toNat = 0xFFFF00FF := rfl
  rw [BitVec.toNat_and, mask]
  constructor
  · rw [Nat.and_mod_two_pow (n := 8), Nat.and_two_pow_sub_one_eq_mod _ 8]
    omega
  · rw [Nat.and_div_two_pow (n := 16), Nat.and_two_pow_sub_one_eq_mod _ 16]
    omega

theorem decodeWord_rdreg {port : Side} {c : Command} (low : c.word.toNat % 256 = 7 + 128 * Spec.sideBit port)
    (high : c.word.toNat / 65536 = 0) : decodeWord port c = selectRow port 7 false (fieldReg c.word) c := by
  have op : (fieldOp c.word).toNat = 7 := by rw [fieldOp_toNat]; omega
  have ap : fieldAp c.word = false := by
    rw [← Bool.toNat_eq_zero, fieldAp_toNat]
    omega
  rw [decodeWord_of_valid rfl (by omega), op, ap]

theorem decodeWord_or_reg {port : Side} {c : Command} {low : CmdWord} {reg : BitVec 8}
    (word : c.word = low ||| reg.setWidth 32 <<< 8) (row : low.toNat = 7 + 128 * Spec.sideBit port) :
    decodeWord port c = selectRow port 7 false reg c := by
  have bit : Spec.sideBit port ≤ 1 := by cases port <;> decide
  have number := toNat_or_reg (low := low) (by omega) reg
  have := reg.isLt
  rw [← word] at number
  have field : fieldReg c.word = reg := BitVec.eq_of_toNat_eq (by rw [fieldReg_toNat]; omega)
  rw [decodeWord_rdreg (by omega) (by omega), field]

/-! ### Encoding, then decoding -/

theorem encode_word (i : Instr) : (encode i).word = encodeWord i := by cases i <;> rfl

/-- The word of every command decodes on its port: a constant word by evaluation, a register read by its `REG` field
(R85, R88). -/
theorem decodeWord_encode (i : Instr) : decodeWord i.side (encode i) = .instr i := by
  cases i with
  | pRdreg reg => exact decodeWord_or_reg (low := 0x07) rfl rfl
  | cRdreg reg => exact decodeWord_or_reg (low := 0x87) rfl rfl
  | _ =>
    rw [decodeWord_of_valid (encode_word _) (by simp [encodeWord, Instr.side, Spec.sideBit])]
    simp only [encodeWord]
    rfl

/-- Settles O1: the word decodes to the command, and a well-formed command has the payload's length right. -/
theorem decodeOfEncodeIsTheCommand : Obligations.DecodeOfEncodeIsTheCommand := fun i wellFormed => by
  rw [decode_of_decodeWord (decodeWord_encode i), if_pos wellFormed]

/-! ### Decoding, then encoding -/

/-- The number of the word of the command a row gives (R71, R88). -/
theorem encodeWord_toNat_of_selectRow {side : Side} {op : Nat} {ap : Bool} {reg : BitVec 8} {c : Command} {i : Instr}
    (h : selectRow side op ap reg c = .instr i) (noStray : op ≠ 7 → reg.toNat = 0) :
    (encodeWord i).toNat = op + 16 * ap.toNat + 128 * Spec.sideBit side + 256 * reg.toNat := by
  unfold selectRow at h
  split at h <;> cases h <;> simp [encodeWord, Spec.sideBit, noStray, toNat_or_reg, -BitVec.toNat_or]

/-- A word that decodes is the word of the command it decodes to: no bit of it is ignored. -/
theorem word_of_decodeWord {port : Side} {c : Command} {i : Instr} (h : decodeWord port c = .instr i) :
    c.word = encodeWord i := by
  have valid : ¬ Spec.ReservedWord port c.word.toNat := fun reserved => by
    obtain ⟨why, malformed⟩ := decodeWord_of_reserved reserved
    cases h.symm.trans malformed
  have noStray : (fieldOp c.word).toNat ≠ 7 → (fieldReg c.word).toNat = 0 := by
    rw [fieldReg_toNat, fieldOp_toNat]
    omega
  apply BitVec.eq_of_toNat_eq
  rw [encodeWord_toNat_of_selectRow (selectRow_of_decodeWord h) noStray, fieldOp_toNat, fieldAp_toNat, fieldReg_toNat]
  omega

/-! ### The opcode map (R88) -/

/-- Every command's word matches the row that bears its mnemonic. -/
theorem rowMatch (i : Instr) : Laws.RowMatch.Statement i := by
  cases i with
  | pNop => exact Laws.RowMatch.pNop
  | cNop => exact Laws.RowMatch.cNop
  | pStart => exact Laws.RowMatch.pStart
  | pAccess size => exact Laws.RowMatch.pAccess size
  | pAccessPart size => exact Laws.RowMatch.pAccessPart size
  | pCommit => exact Laws.RowMatch.pCommit
  | pCancel => exact Laws.RowMatch.pCancel
  | pWrite size payload => exact Laws.RowMatch.pWrite size payload
  | pWritePart size payload => exact Laws.RowMatch.pWritePart size payload
  | pWriteAtomic size payload => exact Laws.RowMatch.pWriteAtomic size payload
  | pDwrite o b => exact Laws.RowMatch.pDwrite o b
  | cStart => exact Laws.RowMatch.cStart
  | cAccess size => exact Laws.RowMatch.cAccess size
  | cAccessPart size => exact Laws.RowMatch.cAccessPart size
  | cCommit => exact Laws.RowMatch.cCommit
  | cCancel => exact Laws.RowMatch.cCancel
  | cRead size => exact Laws.RowMatch.cRead size
  | cReadPart size => exact Laws.RowMatch.cReadPart size
  | cReadAtomic size => exact Laws.RowMatch.cReadAtomic size
  | cDread o => exact Laws.RowMatch.cDread o
  | pRdreg reg => exact Laws.RowMatch.pRdreg reg
  | cRdreg reg => exact Laws.RowMatch.cRdreg reg
  | pProbe o => exact Laws.RowMatch.pProbe o
  | cProbe o => exact Laws.RowMatch.cProbe o

theorem matches_iff (r : OpcodeRow) (port : Side) (w : CmdWord) :
    r.matches port w = true ↔ r.port = port ∧ w &&& r.mask = r.value := by
  simp [OpcodeRow.matches]

/-- A row fixes the whole word, or it is a register read. -/
theorem opcodeMap_mask : ∀ r ∈ opcodeMap, r.mask = 0xFFFFFFFF ∨
    r = ⟨"P.RDREG", .P, 0x07, 0xFFFF00FF⟩ ∨ r = ⟨"C.RDREG", .C, 0x87, 0xFFFF00FF⟩ := by decide

theorem opcodeMap_valid : ∀ r ∈ opcodeMap, ¬ Spec.ReservedWord r.port r.value.toNat := by decide

theorem eq_of_mnemonic_eq : ∀ r ∈ opcodeMap, ∀ r' ∈ opcodeMap, r.mnemonic = r'.mnemonic → r = r' := by decide

section
variable {r r' : OpcodeRow} {port : Side} {c : Command}

/-- The match value of each row decodes to the command the row names, whatever the operands. -/
theorem decodeWord_of_value (row : r ∈ opcodeMap) (word : c.word = r.value) :
    ∃ i, decodeWord r.port c = .instr i ∧ i.mnemonic = r.mnemonic := by
  rw [decodeWord_of_valid word (opcodeMap_valid r row)]
  fin_cases row <;> exact ⟨_, rfl, rfl⟩

theorem decodeWord_of_matches (row : r ∈ opcodeMap) (hit : r.matches port c.word = true) :
    ∃ i, decodeWord port c = .instr i ∧ i.mnemonic = r.mnemonic := by
  obtain ⟨rfl, value⟩ := (matches_iff r port c.word).mp hit
  rcases opcodeMap_mask r row with whole | rfl | rfl
  · refine decodeWord_of_value row ?_
    rw [← value, whole]
    exact BitVec.and_allOnes.symm
  all_goals
    obtain ⟨low, high⟩ := toNat_of_mask value
    exact ⟨_, decodeWord_rdreg low high, rfl⟩

/-- A word decodes to one command, and no two rows name the same one. -/
theorem row_unique (row : r ∈ opcodeMap) (row' : r' ∈ opcodeMap) (hit : r.matches port c.word = true)
    (hit' : r'.matches port c.word = true) : r = r' := by
  obtain ⟨i, decoded, name⟩ := decodeWord_of_matches row hit
  obtain ⟨j, decoded', name'⟩ := decodeWord_of_matches row' hit'
  obtain rfl : i = j := Decoded.instr.inj (decoded.symm.trans decoded')
  exact eq_of_mnemonic_eq r row r' row' (name.symm.trans name')

end

/-- Settles O2: a word that decodes is its command's own, which matches a row; a word that matches a row decodes. -/
theorem decodeFollowsTheOpcodeMap : Obligations.DecodeFollowsTheOpcodeMap := by
  refine ⟨fun port c i decoded => ?_, fun port c r row hit => decodeWord_of_matches row hit,
    fun port w r row r' row' hit hit' => row_unique (c := ⟨w, 0, 0, []⟩) row row' hit hit', rfl⟩
  obtain ⟨r, row, name, hit⟩ := rowMatch i
  rw [encode_word, ← word_of_decodeWord decoded, side_of_selectRow (selectRow_of_decodeWord decoded)] at hit
  exact ⟨r, row, hit, name⟩

/-- Settles O4: a table of closed terms, each evaluated by the decoder. -/
theorem wordsOfTheSpecDecode : Obligations.WordsOfTheSpecDecode := by
  unfold Obligations.WordsOfTheSpecDecode
  decide

end Sys2Proof.Machine
end

section
/-! SUPPORT. What a malformed command is and how it is answered (spec/30_encoding.md R77, R81). -/

namespace Sys2Proof.Machine

theorem decode_of_reserved {port : Side} {c : Command} (reserved : Spec.ReservedWord port c.word.toNat) :
    ∃ why, decode port c = .malformed why := by
  obtain ⟨why, word⟩ := decodeWord_of_reserved reserved
  exact ⟨why, by rw [decode, word]⟩

theorem decode_of_wrong_length {c : Command} (write : c.word = 0x5 ∨ c.word = 0x15 ∨ c.word = 0x6)
    (wrong : c.payload.length ≠ c.opa.toNat) : decode .P c = .malformed .payloadLength := by
  have unfit : ¬ payloadFits c.opa c.payload := by simpa [payloadFits] using wrong
  rcases write with word | word | word <;> rw [decode, decodeWord_of_valid word (by decide)] <;> exact if_neg unfit

/-- A failure that records no misuse changes nothing but the list of responses (spec/60_exceptions.md R220, R223). -/
theorem State.fail_eq_reject (s : State) (sd : Side) (st : Status) : s.fail sd st none = Spec.reject s sd st 0 := by
  simp [Spec.reject, Spec.answer, Spec.response, State.respond, Response.failure, Response.plain]

theorem step_of_malformed {s : State} {f : Fetched} {why : Malformed} (running : s.resetIn = false)
    (fetched : s.fetch = some f) (malformed : decode f.port f.cmd = .malformed why) :
    step s = .next (f.after.fail f.port .invalidArgument none) := by
  simp [step, running, fetched, malformed]

/-- Settles O3: the words of R81 fail a check of the decoder, and the step answers a malformed command by a failure that
records no misuse. -/
theorem reservedWordsAnswerInvalidArgument : Obligations.ReservedWordsAnswerInvalidArgument := by
  refine ⟨fun port c reserved => decode_of_reserved reserved, fun c write wrong => decode_of_wrong_length write wrong,
    fun s f why running fetched malformed => ?_⟩
  rw [step_of_malformed running fetched malformed, State.fail_eq_reject]

/-- Settles O30: the payload check stands before everything else in the meaning of each write. -/
theorem wrongPayloadLengthIsRefused : Obligations.WrongPayloadLengthIsRefused := by
  intro s size payload wrong
  have refused (k : State) : s.withPayload .P size payload k = Spec.reject s .P .invalidArgument 0 :=
    (s.withPayload_wrong .P size payload k wrong).trans (s.fail_eq_reject .P .invalidArgument)
  exact ⟨congrArg _ (refused _), congrArg _ (refused _), congrArg _ (refused _)⟩

end Sys2Proof.Machine
end

section
/-! SUPPORT. Loaded programs (spec/30_encoding.md R87): what loading puts in the queues, and the grant that
takes the next line. -/

namespace Sys2Proof.Machine

/-- The commands a program issues on a port, in line order. -/
def Program.issuedOn (port : Side) : Program → List Command
  | [] => []
  | (p, c) :: rest => if p = port then c :: issuedOn port rest else issuedOn port rest

/-- Loading puts each line behind its port's queue and lists the lines' ports as grants. -/
theorem State.load_eq (s : State) (prog : Program) :
    s.load prog = { s with
      pQueue := s.pQueue ++ prog.issuedOn .P
      cQueue := s.cQueue ++ prog.issuedOn .C
      grants := s.grants ++ prog.map Prod.fst } := by
  have issued (s : State) : prog.foldl (fun t line => t.issue line.1 line.2) s =
      { s with pQueue := s.pQueue ++ prog.issuedOn .P, cQueue := s.cQueue ++ prog.issuedOn .C } := by
    induction prog generalizing s with
    | nil => simp [Program.issuedOn]
    | cons line rest ih =>
      obtain ⟨port, c⟩ := line
      rw [List.foldl_cons, ih]
      cases port <;> simp [State.issue, Program.issuedOn]
  rw [State.load, issued]

/-- A waiting port that has the next listed grant is served, whether or not the other port waits (log entry 4). -/
theorem State.fetch_of_grant {s : State} {port : Side} {c : Command} {rest : List Command} {gs : List Side}
    (queue : s.queue port = c :: rest) (grants : s.grants = port :: gs) :
    s.fetch = some (s.takeFrom port c rest gs) := by
  cases port with
  | P =>
    have own : s.pQueue = c :: rest := queue
    cases other : s.cQueue <;> simp [State.fetch, State.plan, own, other, grants]
  | C =>
    have own : s.cQueue = c :: rest := queue
    cases other : s.pQueue <;> simp [State.fetch, State.plan, own, other, grants]

/-- Settles O7: the first line stands in front of its port's queue with the first grant, and what taking it leaves is
the rest of the program loaded. -/
theorem loadedProgramRunsInLineOrder : Obligations.LoadedProgramRunsInLineOrder := by
  intro s port c rest pEmpty cEmpty noGrant
  have queue : (s.load ((port, c) :: rest)).queue port = c :: rest.issuedOn port := by
    cases port <;> simp [State.load_eq, State.queue, Program.issuedOn, pEmpty, cEmpty]
  have grants : (s.load ((port, c) :: rest)).grants = port :: rest.map Prod.fst := by
    simp [State.load_eq, noGrant]
  have taken : (s.load ((port, c) :: rest)).take port (rest.issuedOn port) (rest.map Prod.fst) =
      { s.load rest with tick := s.tick + 1 } := by
    cases port <;> simp [State.load_eq, State.take, Program.issuedOn, pEmpty, cEmpty, noGrant]
  obtain ⟨left, goal, planned⟩ := State.planRead_cases { s.load rest with tick := s.tick + 1 } port c
  exact ⟨_, State.fetch_of_grant queue grants, rfl, rfl, left, goal, by rw [State.takeFrom, taken, planned]⟩

end Sys2Proof.Machine
end

section
/-! SUPPORT. What a side observes of the peer's counter (spec/40_header.md R104), what a command leaves of the other side
(R100), and which commands move the counters and the transactions (R108). -/

namespace Sys2Proof.Machine

/-! ### The peer read -/

/-- Under `CURRENT` a side reads the register itself (R104). -/
theorem State.readPeer_current {s : State} (view : s.cfg.peerView = .current) (sd : Side) :
    s.readPeer sd = s.peer sd := by
  simp [State.readPeer, view]

/-- A value no farther from the floor than the peer's counter is drawn by the choice of its own distance (R104). -/
theorem laggedDraw_distance {floor peer x : Word} (within : x - floor ≤ peer - floor) :
    laggedDraw floor peer (x - floor).toNat = x := by
  have lt : (x - floor).toNat < (peer - floor).toNat + 1 := Nat.lt_succ_of_le within
  rw [laggedDraw, Nat.mod_eq_of_lt lt, BitVec.ofNat_toNat, BitVec.setWidth_eq, BitVec.add_comm, BitVec.sub_add_cancel]

/-- Settles O38: the bound is that of every peer read, and every value within it is the draw of its own distance. -/
theorem peerReadWithinTheBound : Obligations.PeerReadWithinTheBound :=
  ⟨fun s sd => ⟨fun view => State.readPeer_current view sd, fun _ => s.observable_readPeer sd⟩,
    fun _ _ _ within => ⟨_, laggedDraw_distance within⟩⟩

/-! ### The other side's registers -/

section
variable {s t u : State} {sd : Side}

/-- A move of one side leaves every register of the other as it was (R100). -/
theorem State.Moves.other_side (h : s.Moves sd u) :
    u.own sd.other = s.own sd.other ∧ u.guard sd.other = s.guard sd.other ∧ u.inTx sd.other = s.inTx sd.other ∧
      u.pending sd.other = s.pending sd.other ∧ u.seen sd.other = s.seen sd.other := by
  cases h <;> cases sd <;> exact ⟨rfl, rfl, rfl, rfl, rfl⟩

/-- So does a command of that side. -/
theorem State.Does.other_side (h : s.Does sd t) :
    t.own sd.other = s.own sd.other ∧ t.guard sd.other = s.guard sd.other ∧ t.inTx sd.other = s.inTx sd.other ∧
      t.pending sd.other = s.pending sd.other ∧ t.seen sd.other = s.seen sd.other := by
  obtain ⟨u, m, r, moves, -, rfl⟩ := h
  cases sd <;> exact moves.other_side

/-- The consumer's commands store nothing (spec/20_memory.md R69). -/
theorem State.Does.ram_eq (h : s.Does .C t) : t.ram = s.ram := by
  obtain ⟨u, m, r, -, stores, rfl⟩ := h
  cases stores
  rfl

end

/-- Settles O46, by the frame of what a command of each side can do. -/
theorem sidesAreIsolated : Obligations.SidesAreIsolated := by
  intro i s t h
  have does := exec_does i s t h
  refine ⟨fun side => ?_, fun side => ?_⟩ <;> rw [side] at does
  · exact does.other_side
  · obtain ⟨head, wb, pIntx, pPending, pTailSeen⟩ := does.other_side
    exact ⟨head, wb, pIntx, pPending, pTailSeen, does.ram_eq⟩

/-! ### Counters and transactions, by command -/

/-- The two counters and the two transaction flags. -/
def State.progress (s : State) : Word × Word × Bool × Bool := (s.head, s.tail, s.pIntx, s.cIntx)

/-- What each command may do to the counters and the transaction flags (R108; spec/42_producer.md R140, R150;
spec/43_consumer.md R160, R170). -/
inductive State.Advances (s : State) : Instr → State → Prop
  | none (i : Instr) : Advances s i s
  | pStart : Advances s .pStart (s.setInTx .P true)
  | cStart : Advances s .cStart (s.setInTx .C true)
  | pCommit (n : Word) : Advances s .pCommit ((s.incOwn .P n).setInTx .P false)
  | cCommit (n : Word) : Advances s .cCommit ((s.incOwn .C n).setInTx .C false)
  | pCancel : Advances s .pCancel (s.setInTx .P false)
  | cCancel : Advances s .cCancel (s.setInTx .C false)
  | pWriteAtomic (size : Word) (payload : List Byte) : Advances s (.pWriteAtomic size payload) (s.incOwn .P size)
  | cReadAtomic (size : Word) : Advances s (.cReadAtomic size) (s.incOwn .C size)

/-- In `t` the counters and the transaction flags stand as the command may leave them from `s`. -/
def State.MayReach (s : State) (i : Instr) (t : State) : Prop :=
  ∃ u, s.Advances i u ∧ t.progress = u.progress

section
variable {s k t : State} {sd : Side} {i : Instr}

theorem State.mayReach_of_progress_eq (h : t.progress = s.progress) : s.MayReach i t :=
  ⟨s, .none i, h⟩

variable (s sd i)

theorem State.progress_fail (st : Status) (misuse : Option Misuse) : (s.fail sd st misuse).progress = s.progress := by
  cases misuse <;> rfl

theorem State.mayReach_fail (st : Status) (misuse : Option Misuse) : s.MayReach i (s.fail sd st misuse) :=
  mayReach_of_progress_eq (s.progress_fail sd st misuse)

variable {s sd i}

theorem State.MayReach.withPayload (size : Word) (payload : List Byte) (h : s.MayReach i k) :
    s.MayReach i (s.withPayload sd size payload k) := by
  unfold State.withPayload
  split
  · exact h
  · exact s.mayReach_fail sd i _ _

theorem State.MayReach.withOffset (o : Word) (h : s.MayReach i k) : s.MayReach i (s.withOffset sd o k) := by
  unfold State.withOffset
  split
  · exact s.mayReach_fail sd i _ _
  · exact h

theorem State.MayReach.withTx (h : s.MayReach i k) : s.MayReach i (s.withTx sd k) := by
  rcases s.withTx_cases sd k with ⟨-, eq⟩ | ⟨-, eq⟩ <;> rw [eq]
  · exact h
  · exact s.mayReach_fail sd i _ _

theorem State.mayReach_startTx (opens : s.Advances i (s.setInTx sd true)) : s.MayReach i (s.startTx sd) := by
  unfold State.startTx
  split
  next => exact s.mayReach_fail sd i _ _
  next =>
    rcases s.beginGuard_cases sd with ⟨-, begun⟩ | ⟨-, begun⟩ <;> rw [begun]
    · exact s.mayReach_fail sd i _ _
    · exact ⟨_, opens, by cases sd <;> rfl⟩

theorem State.mayReach_commitTx (publishes : s.Advances i ((s.incOwn sd (s.pending sd)).setInTx sd false)) :
    s.MayReach i (s.commitTx sd) :=
  .withTx ⟨_, publishes, by cases sd <;> rfl⟩

theorem State.mayReach_cancelTx (closes : s.Advances i (s.setInTx sd false)) : s.MayReach i (s.cancelTx sd) :=
  .withTx ⟨_, closes, by cases sd <;> rfl⟩

variable (s sd i)

theorem State.progress_accessCore (size : Word) (ap : Bool) :
    (s.accessCore sd size ap).after.progress = s.progress := by
  rcases s.accessCore_cases sd size ap with ⟨-, eq⟩ | ⟨-, -, -, eq⟩ | ⟨-, -, -, eq⟩ | ⟨-, -, -, -, eq⟩ <;> rw [eq]
  · rfl
  · cases sd <;> rfl

theorem State.mayReach_accessTx (size : Word) (ap : Bool) : s.MayReach i (s.accessTx sd size ap) :=
  .withTx (mayReach_of_progress_eq (s.progress_accessCore sd size ap))

theorem State.progress_writeTx (size : Word) (payload : List Byte) (ap : Bool) :
    (s.writeTx size payload ap).progress = s.progress := by
  simp only [State.writeTx]
  split <;> exact s.progress_accessCore .P size ap

theorem State.progress_readTx (size : Word) (ap : Bool) : (s.readTx size ap).progress = s.progress := by
  simp only [State.readTx]
  split <;> exact s.progress_accessCore .C size ap

theorem State.progress_readReg (reg : BitVec 8) : (s.readReg sd reg).progress = s.progress := by
  unfold State.readReg
  split
  · exact s.progress_fail sd _ _
  · rfl

theorem State.mayReach_pDwrite (o : Word) (b : Byte) :
    s.MayReach i (if s.pWin o then (s.memWrite o b).respond .P (.ok 1)
      else s.fail .P .invalidArgument (some .window)) := by
  split
  · exact mayReach_of_progress_eq rfl
  · exact s.mayReach_fail .P i _ _

theorem State.mayReach_cDread (o : Word) (r : Response) :
    s.MayReach i (if s.cWin o then s.respond .C r else s.fail .C .invalidArgument (some .window)) := by
  split
  · exact mayReach_of_progress_eq rfl
  · exact s.mayReach_fail .C i _ _

end

section
variable {s t : State} {size : Word}

theorem State.mayReach_pWriteAtomic {payload : List Byte} (h : exec (.pWriteAtomic size payload) s = .next t) :
    s.MayReach (.pWriteAtomic size payload) t := by
  by_cases fits : payload.length = size.toNat
  · rcases exec_pWriteAtomic_cases fits h with ⟨st, misuse, -, rfl⟩ | ⟨-, rfl⟩ | ⟨-, -, rfl⟩
    · exact s.mayReach_fail .P _ _ _
    · exact mayReach_of_progress_eq rfl
    · exact ⟨_, .pWriteAtomic size payload, rfl⟩
  · injection h with h
    rw [← h, s.withPayload_wrong _ _ _ _ fits]
    exact s.mayReach_fail .P _ _ _

theorem State.mayReach_cReadAtomic (h : exec (.cReadAtomic size) s = .next t) : s.MayReach (.cReadAtomic size) t := by
  rcases exec_cReadAtomic_cases h with ⟨st, misuse, rfl⟩ | ⟨-, rfl⟩ | ⟨-, -, rfl⟩
  · exact s.mayReach_fail .C _ _ _
  · exact mayReach_of_progress_eq rfl
  · exact ⟨_, .cReadAtomic size, rfl⟩

end

/-- Every command moves the counters and the transactions as its own rule says, or not at all. -/
theorem exec_mayReach (i : Instr) (s t : State) (h : exec i s = .next t) : s.MayReach i t := by
  cases i
  case pWriteAtomic => exact State.mayReach_pWriteAtomic h
  case cReadAtomic => exact State.mayReach_cReadAtomic h
  all_goals injection h with h; subst h
  case pNop | cNop => exact State.mayReach_of_progress_eq rfl
  case pStart => exact State.mayReach_startTx .pStart
  case cStart => exact State.mayReach_startTx .cStart
  case pCommit => exact State.mayReach_commitTx (.pCommit _)
  case cCommit => exact State.mayReach_commitTx (.cCommit _)
  case pCancel => exact State.mayReach_cancelTx .pCancel
  case cCancel => exact State.mayReach_cancelTx .cCancel
  case pAccess | pAccessPart | cAccess | cAccessPart => exact s.mayReach_accessTx _ _ _ _
  case pWrite | pWritePart =>
    exact .withPayload _ _ (.withTx (State.mayReach_of_progress_eq (s.progress_writeTx _ _ _)))
  case pDwrite => exact .withOffset _ (.withTx (s.mayReach_pDwrite _ _ _))
  case cRead | cReadPart => exact .withTx (State.mayReach_of_progress_eq (s.progress_readTx _ _))
  case cDread => exact .withOffset _ (.withTx (s.mayReach_cDread _ _ _))
  case pRdreg | cRdreg => exact State.mayReach_of_progress_eq (s.progress_readReg _ _)
  case pProbe | cProbe => exact .withOffset _ (State.mayReach_of_progress_eq rfl)

/-- Settles O47: of what the commands may do, each change of a counter or a flag stands under the commands named. -/
theorem countersAndTransactionsMoveByTheirCommands : Obligations.CountersAndTransactionsMoveByTheirCommands := by
  intro i s t h
  obtain ⟨u, advances, progress⟩ := exec_mayReach i s t h
  simp only [State.progress, Prod.mk.injEq] at progress
  obtain ⟨head, tail, pIntx, cIntx⟩ := progress
  rw [head, tail, pIntx, cIntx]
  cases advances <;> simp +contextual [State.incOwn]

end Sys2Proof.Machine
end

section
/-! SUPPORT. The address generator against the window it cuts up (spec/41_datapath.md R122 to R127). -/

namespace Sys2Proof.Machine

/-! ### The segments as offsets -/

section
variable {cap start n : Nat}

/-- A window that ends inside the data RAM is not masked back (R126). -/
theorem offsets_of_fits (fits : start + n ≤ cap) :
    ((List.range n).map fun i => (start + i) % cap) = (List.range n).map (start + ·) :=
  List.map_congr_left fun i hi => Nat.mod_eq_of_lt (by have := List.mem_range.mp hi; omega)

/-- The segments of a window list its offsets in stream order (R126, R127). -/
theorem segments_offsets (inside : start < cap) (short : n ≤ cap) :
    (Spec.segments cap start n).flatMap (fun g => (List.range g.2).map (g.1 + ·)) =
      (List.range n).map fun i => (start + i) % cap := by
  unfold Spec.segments
  split
  next empty => simp [empty]
  next =>
    split
    next fits => simp [offsets_of_fits fits]
    next past =>
      obtain ⟨k, rfl⟩ : ∃ k, n = (cap - start) + k := Nat.exists_eq_add_of_le (by omega)
      have rest : start + (cap - start + k) - cap = k := by omega
      have round : ∀ i, (start + (cap - start + i)) % cap = (0 + i) % cap := fun i => by
        rw [← Nat.add_assoc, Nat.add_sub_of_le inside.le, Nat.add_mod_left, Nat.zero_add]
      simp only [List.flatMap_cons, List.flatMap_nil, List.append_nil, rest, List.range_add, List.map_append,
        List.map_map, Function.comp_def, round]
      rw [offsets_of_fits (by omega), offsets_of_fits (by omega)]

/-- Each segment has a byte and ends inside the data RAM (R126). -/
theorem segments_inside (inside : start < cap) (short : n ≤ cap) :
    ∀ g ∈ Spec.segments cap start n, 1 ≤ g.2 ∧ g.1 + g.2 ≤ cap := by
  unfold Spec.segments
  split
  next => simp
  next nonempty =>
    split
    next fits => simpa using ⟨by omega, fits⟩
    next past => simpa using ⟨⟨by omega, by omega⟩, by omega, by omega⟩

/-- The offsets of a window of at most `CAPACITY` bytes are all different (R127). -/
theorem nodup_window (short : n ≤ cap) : ((List.range n).map fun i => (start + i) % cap).Nodup := by
  refine List.Nodup.map_on (fun i hi j hj eq => ?_) List.nodup_range
  rw [List.mem_range] at hi hj
  by_contra ne
  exact add_mod_ne (start := start) (by omega) (by omega) ne eq

end

/-! ### `Geometry` -/

section
variable {s : State} {start n : Word}

/-- `End(start, n)` as a number (R123). -/
theorem State.windowEnd_toNat (s : State) (start n : Word) :
    (s.windowEnd start n).toNat = (start.toNat + n.toNat) % Spec.cap s :=
  s.add_and_mask_toNat start n

/-- A window whose end is masked back below its start runs over the physical end, unless it ends there (R124, R126
item 2). -/
theorem State.wraps_windowEnd (inside : start.toNat < Spec.cap s) (pos : 1 ≤ n.toNat) (short : n.toNat ≤ Spec.cap s) :
    wraps start (s.windowEnd start n) = true ↔ Spec.cap s < start.toNat + n.toNat := by
  have stop := s.windowEnd_toNat start n
  have wraps_iff : wraps start (s.windowEnd start n) = true ↔
      (s.windowEnd start n).toNat ≤ start.toNat ∧ (s.windowEnd start n).toNat ≠ 0 := by
    simp [wraps, BitVec.le_def, BitVec.toNat_eq]
  rw [wraps_iff, stop]
  rcases Nat.lt_trichotomy (start.toNat + n.toNat) (Spec.cap s) with below | ends | past
  · rw [Nat.mod_eq_of_lt below]
    omega
  · rw [ends, Nat.mod_self]
    omega
  · rw [Nat.mod_eq_sub_mod past.le, Nat.mod_eq_of_lt (by omega)]
    omega

end

/-- Settles O35: by whether the window runs over the physical end. -/
theorem geometryIsTheWindow : Obligations.GeometryIsTheWindow := by
  intro s start n inside pos short
  have nonempty : n.toNat ≠ 0 := by omega
  rw [State.geometry, Spec.segments, if_neg nonempty]
  by_cases past : Spec.cap s < start.toNat + n.toNat
  · have stop : (s.windowEnd start n).toNat = start.toNat + n.toNat - Spec.cap s := by
      rw [s.windowEnd_toNat, Nat.mod_eq_sub_mod past.le, Nat.mod_eq_of_lt (by omega)]
    have left : (s.capacity - start).toNat = Spec.cap s - start.toNat := by
      rw [s.cap_eq] at inside ⊢
      exact BitVec.toNat_sub_of_le inside.le
    simp [(State.wraps_windowEnd inside pos short).mpr past, past, stop, left]
  · simp [mt (State.wraps_windowEnd inside pos short).mp past, Nat.not_lt.mp past]

/-- Settles O36, from O35: the statement about offsets is one about the segments as numbers. -/
theorem segmentsListTheWindow : Obligations.SegmentsListTheWindow := by
  intro s start n inside pos short
  have cut := geometryIsTheWindow s start n inside pos short
  have place : ∀ i, (s.segAddr start i).toNat = (start.toNat + i) % Spec.cap s := s.segAddr_toNat start
  simp only [place]
  refine ⟨?_, nodup_window short, fun g hg => ?_⟩
  · rw [← segments_offsets inside short, ← cut, List.flatMap_map]
  · exact segments_inside inside short _ (cut ▸ List.mem_map_of_mem hg)

end Sys2Proof.Machine
end

section
/-! SUPPORT. `InWindow` as a place beyond the window's base, and the windows of the valid-data detector
(spec/41_datapath.md R131, R132). -/

namespace Sys2Proof.Machine

section
variable {s : State} {o base len : Word} {k : Nat}

/-- How many bytes beyond logical offset `base` the offset `o` next comes up (R131). -/
def State.place (s : State) (o base : Word) : Nat := ((o - base) &&& s.mask).toNat

theorem State.inWindow_iff : s.inWindow o base len = true ↔ s.place o base < len.toNat := by
  simp [State.inWindow, State.place, BitVec.lt_def]

theorem State.place_lt (s : State) (o base : Word) : s.place o base < Spec.cap s := by
  rw [s.cap_eq]
  exact s.and_mask_lt _

theorem State.place_modEq (s : State) (o base : Word) : base.toNat + s.place o base ≡ o.toNat [MOD Spec.cap s] := by
  calc base.toNat + s.place o base
    _ ≡ base.toNat + (o - base).toNat [MOD Spec.cap s] := (s.and_mask_modEq _).add_left _
    _ ≡ o.toNat [MOD Spec.cap s] := by simpa using (s.toNat_add_modEq base (o - base)).symm

/-- Only one place below `CAPACITY` has the offset `o`. -/
theorem State.place_eq (below : k < Spec.cap s) (named : base.toNat + k ≡ o.toNat [MOD Spec.cap s]) :
    s.place o base = k :=
  (((s.place_modEq o base).trans named.symm).add_left_cancel' _).eq_of_lt_of_lt (s.place_lt o base) below

end

/-- Settles O37: `InWindow` compares the length with the one place below `CAPACITY` that has the offset. -/
theorem windowPredicateNamesTheWindow : Obligations.WindowPredicateNamesTheWindow := by
  intro s o base len inside short
  refine ⟨State.inWindow_iff.trans ⟨fun within => ?_, ?_⟩, ?_, fun whole => ?_⟩
  · exact ⟨s.place o base, within, by rw [s.place_modEq o base, Nat.mod_eq_of_lt inside]⟩
  · rintro ⟨i, hi, eq⟩
    have named : base.toNat + i ≡ o.toNat [MOD Spec.cap s] := by rw [eq]; exact (Nat.mod_modEq _ _).symm
    rwa [State.place_eq (by omega) named]
  · rintro rfl
    simp [State.inWindow]
  · rw [State.inWindow_iff, whole]
    exact s.place_lt o base

/-! ### The valid-data detector -/

section
variable {s : State}

/-- `Free()` as a number. -/
theorem State.Inv.free_toNat (hi : s.Inv) : s.free.toNat = Spec.cap s - s.occ.toNat := by
  obtain ⟨count, -⟩ := hi
  rw [s.cap_eq]
  exact BitVec.toNat_sub_of_le count

/-- The place of an offset beyond `TAIL` is its place beyond `HEAD` with the committed bytes in front. -/
theorem State.place_tail (s : State) (o : Word) :
    s.place o s.tail = (s.occ.toNat + s.place o s.head) % Spec.cap s := by
  refine State.place_eq (Nat.mod_lt _ s.two_pow_pos) ?_
  calc s.tail.toNat + (s.occ.toNat + s.place o s.head) % Spec.cap s
    _ ≡ s.tail.toNat + (s.occ.toNat + s.place o s.head) [MOD Spec.cap s] := (Nat.mod_modEq _ _).add_left _
    _ ≡ s.head.toNat + s.place o s.head [MOD Spec.cap s] := by
        rw [← Nat.add_assoc]
        exact s.head_modEq.symm.add_right _
    _ ≡ o.toNat [MOD Spec.cap s] := s.place_modEq o s.head

/-- Going round from `HEAD`, the free places come first and the committed ones after them (R132). -/
theorem State.Inv.freeAt_iff_not_validAt (hi : s.Inv) (o : Word) : s.freeAt o = true ↔ ¬ s.validAt o = true := by
  have count : s.occ.toNat ≤ Spec.cap s := s.cap_eq ▸ hi.1
  have below := s.place_lt o s.head
  rw [State.freeAt, State.validAt, State.inWindow_iff, State.inWindow_iff, hi.free_toNat, s.place_tail o]
  rcases Nat.lt_or_ge (s.occ.toNat + s.place o s.head) (Spec.cap s) with before | round
  · rw [Nat.mod_eq_of_lt before]
    omega
  · rw [Nat.mod_eq_sub_mod round, Nat.mod_eq_of_lt (by omega)]
    omega

/-- The producer's open window is free space (spec/20_memory.md R64). -/
theorem State.Inv.freeAt_of_pWin (hi : s.Inv) {o : Word} (inside : s.pWin o = true) : s.freeAt o = true := by
  have free := hi.free_of_pending
  have place := State.inWindow_iff.mp inside
  exact State.inWindow_iff.mpr (by rw [hi.free_toNat]; omega)

/-- The consumer's open window is committed data (R64). -/
theorem State.Inv.validAt_of_cWin (hi : s.Inv) {o : Word} (inside : s.cWin o = true) : s.validAt o = true :=
  State.inWindow_iff.mpr ((State.inWindow_iff.mp inside).trans_le
    (hi.committed_of_fits (s.observable_seen .C) (hi.fits_pending .C)))

end

/-- Settles O40: the open windows lie on the two sides of the partition. -/
theorem validAndFreePartitionTheRam : Obligations.ValidAndFreePartitionTheRam := by
  intro s o hi _
  have partition := hi.freeAt_iff_not_validAt o
  refine ⟨?_, hi.freeAt_of_pWin, hi.validAt_of_cWin, fun ⟨pWin, cWin⟩ => ?_⟩
  · rw [Bool.eq_iff_iff, partition, Bool.not_eq_true, Bool.not_eq_true']
  · exact partition.mp (hi.freeAt_of_pWin pWin) (hi.validAt_of_cWin cWin)

end Sys2Proof.Machine
end

section
/-! SUPPORT. How a command ends: with `Ok`, or as a failing command of its side that says `WouldBlock` only where the
side is idle and its guard is held (spec/60_exceptions.md R220, R223); and the arithmetic assertion over the counters a
side may observe (spec/41_datapath.md R135). -/

namespace Sys2Proof.Machine

/-! ### The two endings of a command -/

/-- A command of the side ends in `t`: it fails with a status, or it answers `Ok` once on its port. -/
inductive State.Ends (s : State) (sd : Side) : State → Prop
  /-- the command fails (R220), and `WouldBlock` is the failure of the guard alone (R223) -/
  | failed (st : Status) (misuse : Option Misuse) (ne : st ≠ .ok)
      (held : st = .wouldBlock → s.inTx sd = false ∧ s.guard sd = true) : Ends s sd (s.fail sd st misuse)
  /-- the command answers `Ok` -/
  | answered (u : State) (r : Response) (ok : r.status = .ok) (kept : u.responses = s.responses) :
      Ends s sd (u.respond sd r)

section
variable {s k t : State} {sd : Side}

/-- A failure other than `WouldBlock`. -/
theorem State.ends_fail (s : State) (sd : Side) (st : Status) (misuse : Option Misuse) (ne : st ≠ .ok)
    (never : st ≠ .wouldBlock) : s.Ends sd (s.fail sd st misuse) :=
  .failed st misuse ne fun eq => absurd eq never

/-- A command that answers `WouldBlock` found its side idle and the guard held. -/
theorem State.Ends.wouldBlock_held {r : Response} (h : s.Ends sd t) (answer : t.responses = s.responses ++ [(sd, r)])
    (blocked : r.status = .wouldBlock) : s.inTx sd = false ∧ s.guard sd = true := by
  cases h with
  | failed st misuse _ held =>
    rw [State.fail_answer answer] at blocked
    exact held blocked
  | answered u r' ok kept =>
    rw [State.respond_answer kept answer, ok] at blocked
    contradiction

theorem State.Ends.withPayload (size : Word) (payload : List Byte) (h : s.Ends sd k) :
    s.Ends sd (s.withPayload sd size payload k) := by
  unfold State.withPayload
  split
  · exact h
  · exact s.ends_fail sd _ _ (by decide) (by decide)

theorem State.Ends.withOffset (o : Word) (h : s.Ends sd k) : s.Ends sd (s.withOffset sd o k) := by
  unfold State.withOffset
  split
  · exact s.ends_fail sd _ _ (by decide) (by decide)
  · exact h

theorem State.Ends.withTx (h : s.Ends sd k) : s.Ends sd (s.withTx sd k) := by
  rcases s.withTx_cases sd k with ⟨-, eq⟩ | ⟨-, eq⟩ <;> rw [eq]
  · exact h
  · exact s.ends_fail sd _ _ (by decide) (by decide)

theorem State.Ends.withIdle (h : s.Ends sd k) : s.Ends sd (s.withIdle sd k) := by
  unfold State.withIdle
  split
  next => exact s.ends_fail sd _ _ (by decide) (by decide)
  next idle =>
    split
    next held => exact .failed _ _ (by decide) fun _ => ⟨Bool.eq_false_of_not_eq_true idle, held⟩
    next => exact h

variable (s sd)

theorem State.ends_startTx : s.Ends sd (s.startTx sd) := by
  unfold State.startTx
  split
  next => exact s.ends_fail sd _ _ (by decide) (by decide)
  next idle =>
    rcases s.beginGuard_cases sd with ⟨held, begun⟩ | ⟨-, begun⟩ <;> rw [begun]
    · exact .failed _ _ (by decide) fun _ => ⟨Bool.eq_false_of_not_eq_true idle, held⟩
    · exact .answered _ _ rfl (by simp)

theorem State.ends_commitTx : s.Ends sd (s.commitTx sd) :=
  .withTx (.answered _ _ rfl (by simp [State.incOwn, State.closeTx, State.endGuard]))

theorem State.ends_cancelTx : s.Ends sd (s.cancelTx sd) :=
  .withTx (.answered _ _ rfl (by simp [State.closeTx, State.endGuard]))

theorem State.ends_readReg (reg : BitVec 8) : s.Ends sd (s.readReg sd reg) := by
  unfold State.readReg
  split
  · exact s.ends_fail sd _ _ (by decide) (by decide)
  · exact .answered s _ rfl rfl

theorem State.ends_probe (o : Word) : s.Ends sd (s.probe sd o) :=
  .withOffset o (.answered s _ rfl rfl)

theorem Access.status_response (r : Access) : r.response.status = r.status := by
  obtain ⟨status, -, -⟩ := Response.withSegs_fields (Response.plain r.status r.n) r.segs
  exact status

theorem State.responses_accessCore (size : Word) (ap : Bool) :
    (s.accessCore sd size ap).after.responses = s.responses := by
  rcases s.accessCore_cases sd size ap with ⟨-, eq⟩ | ⟨-, -, -, eq⟩ | ⟨-, -, -, eq⟩ | ⟨-, -, -, -, eq⟩ <;> rw [eq]
  · rfl
  · simp

/-- A command that answers what `AccessCore` answered (R134): the arithmetic assertion and the lack of space are its
failures. -/
theorem State.ends_accessCore (size : Word) (ap : Bool) :
    s.Ends sd ((s.accessCore sd size ap).after.respond sd (s.accessCore sd size ap).response) := by
  have kept := s.responses_accessCore sd size ap
  rcases s.accessCore_cases sd size ap with ⟨-, eq⟩ | ⟨-, -, -, eq⟩ | ⟨-, -, -, eq⟩ | ⟨-, -, -, -, eq⟩ <;>
    rw [eq] at kept ⊢
  · exact s.ends_fail sd .invalidArgument (some .arith) (by decide) (by decide)
  · exact s.ends_fail sd .outOfSpace none (by decide) (by decide)
  · exact .answered s _ rfl rfl
  · exact .answered _ _ (Access.status_response _) kept

theorem State.ends_accessTx (size : Word) (ap : Bool) : s.Ends sd (s.accessTx sd size ap) :=
  .withTx (s.ends_accessCore sd size ap)

theorem State.ends_writeTx (size : Word) (payload : List Byte) (ap : Bool) :
    s.Ends .P (s.writeTx size payload ap) := by
  simp only [State.writeTx]
  split
  next ok => exact .answered _ _ ((Access.status_response _).trans ok) (s.responses_accessCore .P size ap)
  next => exact s.ends_accessCore .P size ap

theorem State.ends_readTx (size : Word) (ap : Bool) : s.Ends .C (s.readTx size ap) := by
  simp only [State.readTx]
  split
  next ok => exact .answered _ _ ((Access.status_response _).trans ok) (s.responses_accessCore .C size ap)
  next => exact s.ends_accessCore .C size ap

theorem State.ends_writeAtomic (size : Word) (payload : List Byte) : s.Ends .P (s.writeAtomic size payload) := by
  simp only [State.writeAtomic]
  split
  next => exact s.ends_fail .P _ _ (by decide) (by decide)
  next =>
    split
    next => exact s.ends_fail .P _ _ (by decide) (by decide)
    next => split <;> exact .answered _ _ rfl rfl

theorem State.ends_readAtomic (size : Word) : s.Ends .C (s.readAtomic size) := by
  simp only [State.readAtomic]
  split
  next => exact s.ends_fail .C _ _ (by decide) (by decide)
  next =>
    split
    next => exact s.ends_fail .C _ _ (by decide) (by decide)
    next => split <;> exact .answered _ _ rfl rfl

theorem State.ends_pDwrite (o : Word) (b : Byte) :
    s.Ends .P (if s.pWin o then (s.memWrite o b).respond .P (.ok 1)
      else s.fail .P .invalidArgument (some .window)) := by
  split
  · exact .answered _ _ rfl rfl
  · exact s.ends_fail .P _ _ (by decide) (by decide)

theorem State.ends_cDread (o : Word) (r : Response) (ok : r.status = .ok) :
    s.Ends .C (if s.cWin o then s.respond .C r else s.fail .C .invalidArgument (some .window)) := by
  split
  · exact .answered s _ ok rfl
  · exact s.ends_fail .C _ _ (by decide) (by decide)

end

/-- Every command ends in one of the two ways. -/
theorem exec_ends (i : Instr) (s t : State) (h : exec i s = .next t) : s.Ends i.side t := by
  cases i <;> injection h with h <;> subst h
  case pNop | cNop => exact .answered s _ rfl rfl
  case pStart | cStart => exact s.ends_startTx _
  case pAccess | pAccessPart | cAccess | cAccessPart => exact s.ends_accessTx _ _ _
  case pCommit | cCommit => exact s.ends_commitTx _
  case pCancel | cCancel => exact s.ends_cancelTx _
  case pWrite | pWritePart => exact .withPayload _ _ (.withTx (s.ends_writeTx _ _ _))
  case pWriteAtomic => exact .withPayload _ _ (.withIdle (s.ends_writeAtomic _ _))
  case pDwrite => exact .withOffset _ (.withTx (s.ends_pDwrite _ _))
  case cRead | cReadPart => exact .withTx (s.ends_readTx _ _)
  case cReadAtomic => exact .withIdle (s.ends_readAtomic _)
  case cDread => exact .withOffset _ (.withTx (s.ends_cDread _ _ rfl))
  case pRdreg | cRdreg => exact s.ends_readReg _ _
  case pProbe | cProbe => exact s.ends_probe _ _

/-! ### What the invariants rule out -/

section
variable {s : State} {sd : Side} {obs : Word}

/-- Each guard is its side's transaction flag (spec/10_state.md R37 item 2). -/
theorem State.Inv.guard_eq_inTx (hi : s.Inv) (sd : Side) : s.guard sd = s.inTx sd := by
  obtain ⟨-, ⟨wb, rb, -, -⟩, -, -⟩ := hi
  cases sd with
  | P => exact wb
  | C => exact rb

/-- The pending bytes fit for every counter the side may observe, as they do for the snapshot. -/
theorem State.Inv.fits_observable (hi : s.Inv) (ho : s.Observable sd obs) : s.Fits sd obs (s.pending sd) := by
  have snapshot := hi.fits_pending sd
  have between := toNat_sub_add_toNat_sub_of_le _ _ _ ho
  cases sd with
  | P =>
    obtain ⟨order, -⟩ := hi.observed_P ho
    obtain ⟨seen, -⟩ := hi.observed_P (s.observable_seen .P)
    simp only [State.Fits, State.peer_P, State.pending_P] at snapshot between ⊢
    omega
  | C =>
    have order := hi.observed_C ho
    have seen := hi.observed_C (s.observable_seen .C)
    simp only [State.Fits, State.peer_C, State.pending_C] at snapshot between ⊢
    omega

/-- The arithmetic assertion holds for every counter the side may observe (R135). -/
theorem State.Inv.arithBad_observable (hi : s.Inv) (ho : s.Observable sd obs) : s.arithBad sd obs = false := by
  have fits := hi.fits_observable ho
  cases sd with
  | P => exact decide_eq_false (Nat.not_lt.mpr fits)
  | C =>
    have order := hi.observed_C ho
    obtain ⟨(count : (s.head - s.tail).toNat ≤ s.capacity.toNat), -⟩ := hi
    have within : (obs - s.tail).toNat ≤ s.capacity.toNat := by omega
    exact Bool.or_eq_false_iff.mpr ⟨decide_eq_false (Nat.not_lt.mpr within), decide_eq_false (Nat.not_lt.mpr fits)⟩

end

/-- Settles O44: a side observes only counters its pending bytes fit for, and the guard of an idle side is free. -/
theorem unreachableStatusesAreNotAnswered : Obligations.UnreachableStatusesAreNotAnswered := by
  refine fun s hi => ⟨fun sd => hi.arithBad_observable (s.observable_readPeer sd), ?_⟩
  intro i t r h answer blocked
  obtain ⟨idle, held⟩ := (exec_ends i s t h).wouldBlock_held answer blocked
  rw [hi.guard_eq_inTx, idle] at held
  contradiction

end Sys2Proof.Machine
end

section
/-! SUPPORT. The operations of a command in the vocabulary of the statements: its answer, its failure, the checks before
it, the space calculator over numbers (spec/41_datapath.md R129, R130, R135), and the decoding of a row's word
(spec/30_encoding.md R88). -/

namespace Sys2Proof.Machine

/-! ### Answers and failures -/

theorem State.respond_eq_answer (s : State) (sd : Side) (r : Response) : s.respond sd r = Spec.answer s sd r := rfl

theorem Response.ok_eq (n : Word) : Response.ok n = Spec.response .ok n.toNat [] 0 [] := by
  simp [Response.ok, Response.plain, Spec.response]

/-- A failure that records a misuse changes nothing but that bit and the list of responses (spec/60_exceptions.md R220,
R223). -/
theorem State.fail_misuse_eq_reject (s : State) (sd : Side) (st : Status) (m : Misuse) :
    s.fail sd st (some m) = Spec.reject s sd st (BitVec.twoPow 64 (faultBit sd m)) := rfl

/-- The segment fields are those of the segments as numbers (spec/30_encoding.md R78). -/
theorem Response.withSegs_plain (st : Status) (n : Word) (segs : List Segment) (two : segs.length ≤ 2) :
    (Response.plain st n).withSegs segs =
      Spec.response st n.toNat (segs.map fun g => (g.off.toNat, g.len.toNat)) 0 [] := by
  match segs, two with
  | [], _ => simp [Response.withSegs, Response.plain, Spec.response]
  | [a], _ => simp [Response.withSegs, Response.plain, Spec.response]
  | [a, b], _ => simp [Response.withSegs, Response.plain, Spec.response]

/-! ### The check for an idle side -/

section
variable (s : State) (sd : Side) (k : State)

theorem State.withIdle_busy (inTx : s.inTx sd = true) : s.withIdle sd k = s.fail sd .busy (some .busy) := by
  simp [State.withIdle, inTx]

theorem State.withIdle_held (idle : s.inTx sd = false) (held : s.guard sd = true) :
    s.withIdle sd k = s.fail sd .wouldBlock none := by
  simp [State.withIdle, idle, held]

end

/-! ### The space calculator over numbers -/

section
variable {s : State} {sd : Side} {n : Word}

/-- `ArithBad` is the negation of the arithmetic assertion (R135). -/
theorem State.arithBad_eq_false_iff : s.arithBad sd (s.readPeer sd) = false ↔ Spec.arithOk s sd := by
  cases sd <;> simp [State.arithBad, Spec.arithOk, s.cap_eq]

theorem State.arithBad_of_not_arithOk (bad : ¬ Spec.arithOk s sd) : s.arithBad sd (s.readPeer sd) = true := by
  rwa [← State.arithBad_eq_false_iff, Bool.not_eq_false] at bad

/-- Where the arithmetic assertion holds, no difference of the space calculator wraps (R129, R130). -/
theorem State.avail_toNat (arith : Spec.arithOk s sd) : (s.avail sd (s.readPeer sd)).toNat = Spec.avail s sd := by
  cases sd with
  | P =>
    simp only [Spec.arithOk, Spec.avail, State.avail, State.pAvail, s.cap_eq] at arith ⊢
    bv_omega
  | C =>
    obtain ⟨-, arith⟩ := arith
    simp only [Spec.avail, State.avail, State.cAvail]
    bv_omega

theorem Spec.avail_le (arith : Spec.arithOk s sd) : Spec.avail s sd ≤ Spec.cap s := by
  cases sd with
  | P => exact (Nat.sub_le _ _).trans (Nat.sub_le _ _)
  | C =>
    obtain ⟨within, -⟩ := arith
    exact (Nat.sub_le _ _).trans within

theorem State.hasRoom_iff (arith : Spec.arithOk s sd) : s.HasRoom sd n ↔ n.toNat ≤ Spec.avail s sd := by
  rw [← State.avail_toNat arith]
  exact ⟨HasRoom.avail, fun enough => ⟨State.arithBad_eq_false_iff.mpr arith, enough⟩⟩

theorem minWord_toNat (a b : Word) : (minWord a b).toNat = min a.toNat b.toNat := by
  unfold minWord
  split
  next le => exact (Nat.min_eq_left le).symm
  next gt => exact (Nat.min_eq_right (Nat.le_of_not_le gt)).symm

theorem State.start_toNat (s : State) (sd : Side) : (s.start sd).toNat = Spec.start s sd := by
  cases sd <;> exact s.add_and_mask_toNat _ _

end

/-! ### Decoding a word that is a row's -/

section
variable {c : Command} {i : Instr}

/-- A valid word decodes to the well-formed command its fields select (R80). -/
theorem decode_of_row (port : Side) (w : CmdWord) (word : c.word = w) (valid : ¬ Spec.ReservedWord port w.toNat)
    (row : selectRow port (fieldOp w).toNat (fieldAp w) (fieldReg w) c = .instr i) (fits : i.wellFormed = true) :
    decode port c = .instr i := by
  rw [decode_of_decodeWord ((decodeWord_of_valid word valid).trans row), if_pos fits]

/-- The word of a write decodes to the command its fields select if its payload is `size` bytes long (R77). -/
theorem decode_of_write_row (w : CmdWord) (word : c.word = w) (valid : ¬ Spec.ReservedWord .P w.toNat)
    (row : selectRow .P (fieldOp w).toNat (fieldAp w) (fieldReg w) c = .instr i)
    (write : i.wellFormed = payloadFits c.opa c.payload) :
    decode .P c = if c.payload.length = c.opa.toNat then .instr i else .malformed .payloadLength := by
  rw [decode_of_decodeWord ((decodeWord_of_valid word valid).trans row), write]
  simp [payloadFits]

end

end Sys2Proof.Machine
end

section
/-! SUPPORT. The transaction commands of the producer (spec/42_producer.md R141, R144, R145). -/

namespace Sys2Proof.Machine

section
variable (s : State) (sd : Side)

theorem State.startTx_busy (inTx : s.inTx sd = true) : s.startTx sd = s.fail sd .busy (some .busy) := by
  simp [State.startTx, inTx]

theorem State.startTx_held (idle : s.inTx sd = false) (held : s.guard sd = true) :
    s.startTx sd = s.fail sd .wouldBlock none := by
  simp [State.startTx, State.beginGuard, idle, held]

theorem State.startTx_idle (idle : s.inTx sd = false) (free : s.guard sd = false) :
    s.startTx sd = (((s.setGuard sd true).setInTx sd true).setPending sd 0).respond sd (.ok 0) := by
  simp [State.startTx, State.beginGuard, idle, free]

theorem State.commitTx_open (inTx : s.inTx sd = true) :
    s.commitTx sd = ((s.incOwn sd (s.pending sd)).closeTx sd).respond sd (.ok (s.pending sd)) :=
  s.withTx_open sd _ inTx

theorem State.cancelTx_open (inTx : s.inTx sd = true) :
    s.cancelTx sd = (s.closeTx sd).respond sd (.ok (s.pending sd)) :=
  s.withTx_open sd _ inTx

end

/-- Settles O16: the flag and the guard name the outcome of `START`. -/
theorem producerStartOpensTheTransaction : Obligations.ProducerStartOpensTheTransaction := by
  refine fun s => ⟨fun a b p => decode_of_row .P 0x1 rfl (by decide) rfl rfl, fun inTx => ?_, fun idle held => ?_,
    fun idle free => ?_⟩ <;> refine congrArg Host.Outcome.next ?_
  · exact (s.startTx_busy .P inTx).trans (s.fail_misuse_eq_reject .P _ _)
  · exact (s.startTx_held .P idle held).trans (s.fail_eq_reject .P .wouldBlock)
  · exact s.startTx_idle .P idle free

/-- Settles O18, by the check for an open transaction. -/
theorem producerCommitPublishesThePending : Obligations.ProducerCommitPublishesThePending := by
  refine fun s => ⟨fun a b p => decode_of_row .P 0x3 rfl (by decide) rfl rfl, fun idle => ?_, fun inTx => ?_⟩ <;>
    refine congrArg Host.Outcome.next ?_
  · exact (s.withTx_idle .P _ idle).trans (s.fail_misuse_eq_reject .P _ _)
  · rw [s.commitTx_open .P inTx, Response.ok_eq]
    rfl

/-- Settles O20, by the check for an open transaction. -/
theorem producerCancelDiscardsThePending : Obligations.ProducerCancelDiscardsThePending := by
  refine fun s => ⟨fun a b p => decode_of_row .P 0x4 rfl (by decide) rfl rfl, fun idle => ?_, fun inTx => ?_⟩ <;>
    refine congrArg Host.Outcome.next ?_
  · exact (s.withTx_idle .P _ idle).trans (s.fail_misuse_eq_reject .P _ _)
  · rw [s.cancelTx_open .P inTx, Response.ok_eq]
    rfl

end Sys2Proof.Machine
end

section
/-! SUPPORT. `AccessCore` and the access commands in the vocabulary of the statements (spec/41_datapath.md R134;
spec/42_producer.md R142, R143). -/

namespace Sys2Proof.Machine

/-! ### What the access core answers -/

section
variable {s : State} {sd : Side} {size : Word} {ap : Bool} {n : Nat}

theorem State.accessCore_arith (bad : ¬ Spec.arithOk s sd) :
    s.accessCore sd size ap = ⟨.invalidArgument, 0, [], s.stickyFault sd .arith⟩ := by
  simp [State.accessCore, State.arithBad_of_not_arithOk bad]

theorem State.accessCore_outOfSpace (arith : Spec.arithOk s sd) (lack : Spec.avail s sd < size.toNat) :
    s.accessCore sd size false = ⟨.outOfSpace, 0, [], s⟩ := by
  have short : s.avail sd (s.readPeer sd) < size := by rwa [BitVec.lt_def, State.avail_toNat arith]
  simp [State.accessCore, State.arithBad_eq_false_iff.mpr arith, short]

/-- The segments answered for a window are those of the window as numbers (R125, R126). -/
theorem State.response_geometry (m : Word) (pos : m ≠ 0) (short : m.toNat ≤ Spec.cap s) :
    (Response.plain .ok m).withSegs (s.geometry (s.start sd) m) =
      Spec.response .ok m.toNat (Spec.served s sd m.toNat) 0 [] := by
  have inside : (s.start sd).toNat < Spec.cap s := s.cap_eq ▸ s.and_mask_lt _
  have two : (s.geometry (s.start sd) m).length ≤ 2 := by
    unfold State.geometry
    dsimp only
    split <;> simp
  rw [Response.withSegs_plain _ _ _ two, geometryIsTheWindow s _ m inside (by bv_omega) short, s.start_toNat]
  rfl

theorem Spec.grown_toNat (m : Word) (pos : m ≠ 0) :
    (s.setPending sd (s.pending sd + m)).setSeen sd (s.readPeer sd) = Spec.grown s sd m.toNat := by
  have ne : m.toNat ≠ 0 := by bv_omega
  cases sd <;> simp [Spec.grown, ne, State.setPending, State.setSeen]

/-- What `AccessCore` answers when it serves: as many bytes as are asked for and there (R134). -/
theorem State.accessCore_served (arith : Spec.arithOk s sd) (enough : ap = false → size.toNat ≤ Spec.avail s sd)
    (served : n = min size.toNat (Spec.avail s sd)) :
    (s.accessCore sd size ap).status = .ok ∧ (s.accessCore sd size ap).n.toNat = n ∧
      (s.accessCore sd size ap).response = Spec.response .ok n (Spec.served s sd n) 0 [] ∧
      (s.accessCore sd size ap).after = Spec.grown s sd n := by
  have within := Spec.avail_le arith
  rw [← State.avail_toNat arith] at enough served within
  rcases s.accessCore_cases sd size ap with
    ⟨bad, -⟩ | ⟨-, all, short, -⟩ | ⟨-, -, none, eq⟩ | ⟨-, -, asked, there, eq⟩
  · simp [State.arithBad_eq_false_iff.mpr arith] at bad
  · exact absurd short (BitVec.not_lt.mpr (enough all))
  · obtain rfl : n = 0 := by rcases none with none | none <;> simp [served, none]
    rw [eq]
    exact ⟨rfl, rfl, rfl, rfl⟩
  · rw [← minWord_toNat] at served
    subst served
    have pos : minWord size (s.avail sd (s.readPeer sd)) ≠ 0 := by
      unfold minWord
      split <;> assumption
    have short := BitVec.le_def.mp (minWord_le_right size (s.avail sd (s.readPeer sd)))
    rw [eq]
    exact ⟨rfl, rfl, State.response_geometry _ pos (short.trans within), Spec.grown_toNat _ pos⟩

/-! ### The access commands -/

theorem State.accessTx_idle (idle : s.inTx sd = false) :
    s.accessTx sd size ap = s.fail sd .noTransaction (some .noTx) :=
  s.withTx_idle sd _ idle

theorem State.accessTx_open (inTx : s.inTx sd = true) :
    s.accessTx sd size ap = (s.accessCore sd size ap).after.respond sd (s.accessCore sd size ap).response :=
  s.withTx_open sd _ inTx

theorem State.accessTx_arith (inTx : s.inTx sd = true) (bad : ¬ Spec.arithOk s sd) :
    s.accessTx sd size ap = s.fail sd .invalidArgument (some .arith) := by
  rw [State.accessTx_open inTx, State.accessCore_arith bad]
  rfl

theorem State.accessTx_outOfSpace (inTx : s.inTx sd = true) (arith : Spec.arithOk s sd)
    (lack : Spec.avail s sd < size.toNat) : s.accessTx sd size false = s.fail sd .outOfSpace none := by
  rw [State.accessTx_open inTx, State.accessCore_outOfSpace arith lack]
  rfl

theorem State.accessTx_served (inTx : s.inTx sd = true) (arith : Spec.arithOk s sd)
    (enough : ap = false → size.toNat ≤ Spec.avail s sd) (served : n = min size.toNat (Spec.avail s sd)) :
    s.accessTx sd size ap =
      Spec.answer (Spec.grown s sd n) sd (Spec.response .ok n (Spec.served s sd n) 0 []) := by
  obtain ⟨-, -, response, after⟩ := State.accessCore_served arith enough served
  rw [State.accessTx_open inTx, response, after, State.respond_eq_answer]

end

/-- Settles O22, by what the access core answers when it must serve all or nothing. -/
theorem producerAccessServesAllOrNothing : Obligations.ProducerAccessServesAllOrNothing := by
  refine fun s size => ⟨fun b p => decode_of_row .P 0x2 rfl (by decide) rfl rfl, fun idle => ?_, fun inTx bad => ?_,
    fun inTx arith lack => ?_, fun inTx arith enough => ?_⟩ <;> refine congrArg Host.Outcome.next ?_
  · exact (State.accessTx_idle (sd := .P) idle).trans (s.fail_misuse_eq_reject .P _ _)
  · exact (State.accessTx_arith (sd := .P) inTx bad).trans (s.fail_misuse_eq_reject .P _ _)
  · exact (State.accessTx_outOfSpace (sd := .P) inTx arith lack).trans (s.fail_eq_reject .P .outOfSpace)
  · exact State.accessTx_served (sd := .P) inTx arith (fun _ => enough) (Nat.min_eq_left enough).symm

/-- Settles O23, by what the access core answers when it may serve less. -/
theorem producerPartialAccessServesWhatIsFree : Obligations.ProducerPartialAccessServesWhatIsFree := by
  refine fun s size => ⟨fun b p => decode_of_row .P 0x12 rfl (by decide) rfl rfl, fun idle => ?_, fun inTx bad => ?_,
    fun inTx arith n served => ?_⟩ <;> refine congrArg Host.Outcome.next ?_
  · exact (State.accessTx_idle (sd := .P) idle).trans (s.fail_misuse_eq_reject .P _ _)
  · exact (State.accessTx_arith (sd := .P) inTx bad).trans (s.fail_misuse_eq_reject .P _ _)
  · exact State.accessTx_served (sd := .P) inTx arith (fun all => nomatch all) served

end Sys2Proof.Machine
end

section
/-! SUPPORT. The copies of the write commands in the vocabulary of the statements (spec/42_producer.md R146 to R149). -/

namespace Sys2Proof.Machine

/-! ### Copies within a transaction -/

section
variable {s : State} {size : Word} {payload : List Byte} {ap : Bool} {n : Nat}

theorem State.writeTx_ok (ok : (s.accessCore .P size ap).status = .ok) :
    s.writeTx size payload ap =
      ((s.accessCore .P size ap).after.copyIn (s.start .P)
        (payload.take (s.accessCore .P size ap).n.toNat)).respond .P (s.accessCore .P size ap).response := by
  simp only [State.writeTx, ok]

theorem State.writeTx_arith (bad : ¬ Spec.arithOk s .P) :
    s.writeTx size payload ap = s.fail .P .invalidArgument (some .arith) := by
  simp only [State.writeTx, State.accessCore_arith bad]
  rfl

theorem State.writeTx_outOfSpace (arith : Spec.arithOk s .P) (lack : Spec.avail s .P < size.toNat) :
    s.writeTx size payload false = s.fail .P .outOfSpace none := by
  simp only [State.writeTx, State.accessCore_outOfSpace arith lack]
  rfl

theorem Spec.grown_cfg (s : State) (sd : Side) (n : Nat) : (Spec.grown s sd n).cfg = s.cfg := by
  unfold Spec.grown
  split
  · rfl
  · cases sd <;> rfl

theorem Spec.grown_ram (s : State) (sd : Side) (n : Nat) : (Spec.grown s sd n).ram = s.ram := by
  unfold Spec.grown
  split
  · rfl
  · cases sd <;> rfl

/-- A copy into a state that differs in neither parameters nor RAM stores what a copy into `s` stores. -/
theorem State.copyIn_congr {t : State} (cfg : t.cfg = s.cfg) (ram : t.ram = s.ram) (start : Word) (bs : List Byte) :
    t.copyIn start bs = { t with ram := s.writeWindow start 0 bs s.ram } := by
  rw [State.copyIn, State.writeWindow_congr t s cfg, ram]

/-- What a write that serves `n` bytes does: the access of R134, and the first `n` bytes of the payload stored from
where the next byte stood. -/
theorem State.writeTx_served (arith : Spec.arithOk s .P) (enough : ap = false → size.toNat ≤ Spec.avail s .P)
    (served : n = min size.toNat (Spec.avail s .P)) :
    ∃ m, s.writeTx size payload ap =
        Spec.answer { Spec.grown s .P n with ram := m } .P (Spec.response .ok n (Spec.served s .P n) 0 []) ∧
      Spec.Stored s.ram m (Spec.cap s) (Spec.start s .P) (payload.take n) := by
  obtain ⟨ok, count, response, after⟩ := State.accessCore_served arith enough served
  have fit : (payload.take n).length ≤ Spec.cap s := by
    have within := Spec.avail_le arith
    rw [List.length_take]
    omega
  refine ⟨s.writeWindow (s.start .P) 0 (payload.take n) s.ram, ?_, ?_⟩
  · rw [State.writeTx_ok ok, response, after, count,
      State.copyIn_congr (Spec.grown_cfg s .P n) (Spec.grown_ram s .P n), State.respond_eq_answer]
  · rw [← s.start_toNat]
    exact s.stored_writeWindow _ _ _ fit

/-- The two checks before the copy of a write within a transaction. -/
theorem State.withPayload_withTx_open {k : State} (fits : payload.length = size.toNat) (inTx : s.pIntx = true) :
    s.withPayload .P size payload (s.withTx .P k) = k := by
  rw [s.withPayload_fits _ _ _ _ fits, s.withTx_open .P _ inTx]

theorem State.withPayload_withTx_idle {k : State} (fits : payload.length = size.toNat) (idle : s.pIntx = false) :
    s.withPayload .P size payload (s.withTx .P k) = s.fail .P .noTransaction (some .noTx) := by
  rw [s.withPayload_fits _ _ _ _ fits, s.withTx_idle .P _ idle]

end

/-- Settles O26: the access serves all of the payload, which is then stored whole. -/
theorem producerWriteStoresThePayload : Obligations.ProducerWriteStoresThePayload := by
  intro s size payload
  refine ⟨fun b => decode_of_write_row 0x5 rfl (by decide) rfl rfl, fun fits idle => ?_, fun fits inTx bad => ?_,
    fun fits inTx arith lack => ?_, fun fits inTx arith enough => ?_⟩
  · exact congrArg Host.Outcome.next
      ((State.withPayload_withTx_idle fits idle).trans (s.fail_misuse_eq_reject .P _ _))
  · exact congrArg Host.Outcome.next ((State.withPayload_withTx_open fits inTx).trans
      ((State.writeTx_arith bad).trans (s.fail_misuse_eq_reject .P _ _)))
  · exact congrArg Host.Outcome.next ((State.withPayload_withTx_open fits inTx).trans
      ((State.writeTx_outOfSpace arith lack).trans (s.fail_eq_reject .P _)))
  · obtain ⟨m, written, stored⟩ := State.writeTx_served (payload := payload) (ap := false) arith
      (fun _ => enough) (Nat.min_eq_left enough).symm
    rw [← fits, List.take_length] at stored
    exact ⟨m, congrArg Host.Outcome.next ((State.withPayload_withTx_open fits inTx).trans written), stored⟩

/-- Settles O27: the access serves what is free, and that much of the payload is stored. -/
theorem producerPartialWriteStoresWhatFits : Obligations.ProducerPartialWriteStoresWhatFits := by
  intro s size payload
  refine ⟨fun b => decode_of_write_row 0x15 rfl (by decide) rfl rfl, fun fits idle => ?_, fun fits inTx bad => ?_,
    fun fits inTx arith n served => ?_⟩
  · exact congrArg Host.Outcome.next
      ((State.withPayload_withTx_idle fits idle).trans (s.fail_misuse_eq_reject .P _ _))
  · exact congrArg Host.Outcome.next ((State.withPayload_withTx_open fits inTx).trans
      ((State.writeTx_arith bad).trans (s.fail_misuse_eq_reject .P _ _)))
  · obtain ⟨m, written, stored⟩ := State.writeTx_served (payload := payload) (ap := true) arith
      (fun all => nomatch all) served
    exact ⟨m, congrArg Host.Outcome.next ((State.withPayload_withTx_open fits inTx).trans written), stored⟩

/-! ### The atomic write -/

section
variable {s : State} {size : Word} {payload : List Byte}

theorem State.writeAtomic_arith (bad : ¬ Spec.arithOk s .P) :
    s.writeAtomic size payload = s.fail .P .invalidArgument (some .arith) := by
  simp [State.writeAtomic, State.arithBad_of_not_arithOk bad]

theorem State.writeAtomic_outOfSpace (arith : Spec.arithOk s .P) (lack : Spec.avail s .P < size.toNat) :
    s.writeAtomic size payload = s.fail .P .outOfSpace none := by
  have short : s.pAvail (s.readPeer .P) < size := by
    rw [BitVec.lt_def]
    exact (State.avail_toNat arith).trans_lt lack
  simp [State.writeAtomic, State.arithBad_eq_false_iff.mpr arith, short]

theorem State.writeAtomic_zero (arith : Spec.arithOk s .P) : s.writeAtomic 0 payload = s.respond .P (.ok 0) := by
  simp [State.writeAtomic, State.arithBad_eq_false_iff.mpr arith, BitVec.lt_def]

/-- There being room, the payload is copied in at `HEAD` and published (R148). -/
theorem State.writeAtomic_of_room (room : s.HasRoom .P size) (ne : size ≠ 0) :
    s.writeAtomic size payload =
      (((s.copyIn (s.head &&& s.mask) payload).incOwn .P size).setSeen .P (s.readPeer .P)).respond .P (.ok size) := by
  obtain ⟨arith, avail⟩ := room
  have enough : ¬ s.pAvail (s.readPeer .P) < size := BitVec.not_lt.mpr avail
  rw [State.writeAtomic, if_neg (by simp [arith]), if_neg enough, if_neg ne]

/-- The same field by field, with what is stored. -/
theorem State.writeAtomic_served (arith : Spec.arithOk s .P) (ne : size ≠ 0) (enough : size.toNat ≤ Spec.avail s .P)
    (fits : payload.length = size.toNat) :
    ∃ m, s.writeAtomic size payload =
        Spec.answer { s with ram := m, head := s.head + size, pTailSeen := s.readPeer .P } .P
          (Spec.response .ok size.toNat [] 0 []) ∧
      Spec.Stored s.ram m (Spec.cap s) (s.head.toNat % Spec.cap s) payload := by
  refine ⟨s.writeWindow (s.head &&& s.mask) 0 payload s.ram, ?_, ?_⟩
  · rw [State.writeAtomic_of_room ((State.hasRoom_iff arith).mpr enough) ne, Response.ok_eq]
    rfl
  · have within := Spec.avail_le arith
    rw [← s.and_mask_toNat]
    exact s.stored_writeWindow _ _ _ (by omega)

/-- The two checks before an atomic write. -/
theorem State.withPayload_withIdle_idle {k : State} (fits : payload.length = size.toNat) (idle : s.pIntx = false)
    (free : s.wb = false) : s.withPayload .P size payload (s.withIdle .P k) = k := by
  rw [s.withPayload_fits _ _ _ _ fits, s.withIdle_idle .P _ idle free]

end

/-- Settles O31: the checks in their order, then the copy that there is room for. -/
theorem producerAtomicWriteIsAllOrNothing : Obligations.ProducerAtomicWriteIsAllOrNothing := by
  refine fun s size payload _ => ⟨fun b => decode_of_write_row 0x6 rfl (by decide) rfl rfl, fun fits =>
    ⟨fun inTx => ?_, fun idle held => ?_, fun idle free bad => ?_, fun idle free arith lack => ?_,
      fun idle free arith zero => ?_, fun idle free arith ne enough => ?_⟩⟩
  · exact congrArg Host.Outcome.next ((s.withPayload_fits _ _ _ _ fits).trans
      ((s.withIdle_busy .P _ inTx).trans (s.fail_misuse_eq_reject .P _ _)))
  · exact congrArg Host.Outcome.next ((s.withPayload_fits _ _ _ _ fits).trans
      ((s.withIdle_held .P _ idle held).trans (s.fail_eq_reject .P _)))
  · exact congrArg Host.Outcome.next ((State.withPayload_withIdle_idle fits idle free).trans
      ((State.writeAtomic_arith bad).trans (s.fail_misuse_eq_reject .P _ _)))
  · exact congrArg Host.Outcome.next ((State.withPayload_withIdle_idle fits idle free).trans
      ((State.writeAtomic_outOfSpace arith lack).trans (s.fail_eq_reject .P _)))
  · subst zero
    exact congrArg Host.Outcome.next
      ((State.withPayload_withIdle_idle fits idle free).trans (State.writeAtomic_zero arith))
  · obtain ⟨m, written, stored⟩ := State.writeAtomic_served arith ne enough fits
    exact ⟨m, congrArg Host.Outcome.next ((State.withPayload_withIdle_idle fits idle free).trans written), stored⟩

/-! ### The byte write -/

/-- `InWindow` names the window for every length: beyond `CAPACITY` it comes round to offsets it already has (R131). -/
theorem State.inWindow_iff_specInWindow {s : State} {o : Word} (base len : Word) (legal : o.toNat < Spec.cap s) :
    s.inWindow o base len = true ↔ Spec.InWindow (Spec.cap s) o.toNat base.toNat len.toNat := by
  rw [State.inWindow_iff]
  refine ⟨fun within => ⟨s.place o base, within, ?_⟩, ?_⟩
  · rw [s.place_modEq o base, Nat.mod_eq_of_lt legal]
  · rintro ⟨i, hi, eq⟩
    have named : base.toNat + i % Spec.cap s ≡ o.toNat [MOD Spec.cap s] := by
      rw [eq]
      exact ((Nat.mod_modEq i _).add_left _).trans (Nat.mod_modEq _ _).symm
    rw [State.place_eq (Nat.mod_lt _ s.two_pow_pos) named]
    exact (Nat.mod_le _ _).trans_lt hi

theorem State.lt_capacity_iff (s : State) {o : Word} : o < s.capacity ↔ o.toNat < Spec.cap s := by
  rw [BitVec.lt_def, s.cap_eq]

theorem State.capacity_le_iff (s : State) {o : Word} : s.capacity ≤ o ↔ Spec.cap s ≤ o.toNat := by
  rw [BitVec.le_def, s.cap_eq]

/-- The two checks before a byte write. -/
theorem State.withOffset_withTx_open {s k : State} {o : Word} (legal : o.toNat < Spec.cap s) (inTx : s.pIntx = true) :
    s.withOffset .P o (s.withTx .P k) = k := by
  rw [s.withOffset_legal .P o _ (s.lt_capacity_iff.mpr legal), s.withTx_open .P _ inTx]

/-- Settles O33: the checks in their order, the last of them whether the offset is one of the open window's. -/
theorem byteWriteStaysInTheWindow : Obligations.ByteWriteStaysInTheWindow := by
  refine fun s o b => ⟨fun p => decode_of_row .P 0x8 rfl (by decide) rfl rfl, fun illegal => ?_,
    fun legal idle => ?_, fun legal inTx outside => ?_, fun legal inTx inside =>
    ⟨s.ram.write o.toNat b, ?_, s.ram.stored_write b legal⟩⟩ <;> refine congrArg Host.Outcome.next ?_
  · exact (s.withOffset_illegal .P o _ (s.capacity_le_iff.mpr illegal)).trans (s.fail_eq_reject .P _)
  · exact (s.withOffset_legal .P o _ (s.lt_capacity_iff.mpr legal)).trans
      ((s.withTx_idle .P _ idle).trans (s.fail_misuse_eq_reject .P _ _))
  · have beyond : ¬ s.pWin o = true := mt (State.inWindow_iff_specInWindow _ _ legal).mp outside
    rw [State.withOffset_withTx_open legal inTx, if_neg beyond]
    exact s.fail_misuse_eq_reject .P _ _
  · have within : s.pWin o = true := (State.inWindow_iff_specInWindow _ _ legal).mpr inside
    rw [State.withOffset_withTx_open legal inTx, if_pos within]
    rfl

end Sys2Proof.Machine
end

section
/-! SUPPORT. An atomic write into an empty block and the atomic read of as many bytes (spec/42_producer.md R148,
spec/43_consumer.md R168; spec/95_test_vectors.md V6). -/

namespace Sys2Proof.Machine

section
variable {s : State} {n : Word} {payload : List Byte}

/-! ### Atomic copies there is room for -/

theorem exec_pWriteAtomic_of_room (fits : payload.length = n.toNat) (idle : s.pIntx = false) (free : s.wb = false)
    (room : s.HasRoom .P n) (ne : n ≠ 0) :
    exec (.pWriteAtomic n payload) s =
      .next ((((s.copyIn (s.head &&& s.mask) payload).incOwn .P n).setSeen .P (s.readPeer .P)).respond .P (.ok n)) :=
  congrArg Host.Outcome.next
    ((State.withPayload_withIdle_idle fits idle free).trans (State.writeAtomic_of_room room ne))

/-- There being room, the front of the stream is copied out and consumed (R168). -/
theorem State.readAtomic_of_room (room : s.HasRoom .C n) (ne : n ≠ 0) :
    s.readAtomic n = ((s.incOwn .C n).setSeen .C (s.readPeer .C)).respond .C
      { Response.ok n with rbytes := s.copyOut (s.tail &&& s.mask) n.toNat } := by
  obtain ⟨arith, avail⟩ := room
  have enough : ¬ s.cAvail (s.readPeer .C) < n := BitVec.not_lt.mpr avail
  rw [State.readAtomic, if_neg (by simp [arith]), if_neg enough, if_neg ne]

theorem exec_cReadAtomic_of_room (idle : s.cIntx = false) (free : s.rb = false) (room : s.HasRoom .C n) (ne : n ≠ 0) :
    exec (.cReadAtomic n) s = .next (((s.incOwn .C n).setSeen .C (s.readPeer .C)).respond .C
      { Response.ok n with rbytes := s.copyOut (s.tail &&& s.mask) n.toNat }) :=
  congrArg Host.Outcome.next ((s.withIdle_idle .C _ idle free).trans (State.readAtomic_of_room room ne))

/-! ### Room under `CURRENT` -/

/-- An empty block has room for `CAPACITY` bytes. -/
theorem State.hasRoom_of_empty (view : s.cfg.peerView = .current) (none : s.pPending = 0) (empty : s.head = s.tail)
    (short : n.toNat ≤ Spec.cap s) : s.HasRoom .P n := by
  have arith : Spec.arithOk s .P := by simp [Spec.arithOk, State.readPeer_current view, none, empty]
  rw [State.hasRoom_iff arith]
  simpa [Spec.avail, State.readPeer_current view, none, empty] using short

/-- An idle consumer can be served all that is committed. -/
theorem State.hasRoom_of_committed (view : s.cfg.peerView = .current) (none : s.cPending = 0)
    (count : s.occ.toNat ≤ Spec.cap s) (there : n.toNat ≤ s.occ.toNat) : s.HasRoom .C n := by
  have arith : Spec.arithOk s .C := by
    simpa [Spec.arithOk, State.readPeer_current view, none, State.occ] using count
  rw [State.hasRoom_iff arith]
  simpa [Spec.avail, State.readPeer_current view, none, State.occ] using there

/-! ### The bytes -/

theorem State.committed_of_empty (empty : s.head = s.tail) : s.committed = [] := by
  simp [State.committed, State.occ, empty]

/-- A read of the whole stream, every byte of it written, returns the stream. -/
theorem State.ReadsFrom.rbytes_eq {r : Response} {bs : List Byte} (h : s.ReadsFrom 0 r)
    (stream : s.committed = bs.map some) (whole : r.n.toNat = bs.length) : r.rbytes = bs := by
  obtain ⟨length, bytes⟩ := h
  refine List.ext_getElem (length.trans whole) fun k hr hk => ?_
  have byte := bytes k bs[k] (whole ▸ hk) (by simp [stream, hk])
  exact (List.getElem?_eq_some_iff.mp byte).2

/-! ### The two commands -/

/-- Into an empty block the payload is written as the whole stream. -/
theorem State.Inv.exec_pWriteAtomic_of_empty (hi : s.Inv) (view : s.cfg.peerView = .current) (empty : s.head = s.tail)
    (idle : s.pIntx = false) (fits : payload.length = n.toNat) (ne : n ≠ 0) (short : n.toNat ≤ Spec.cap s) :
    ∃ t, exec (.pWriteAtomic n payload) s = .next t ∧
      t.responses = s.responses ++ [(.P, Spec.response .ok payload.length [] 0 [])] ∧
      t.committed = payload.map some ∧ t.occ = n ∧ t.cfg = s.cfg := by
  have free : s.wb = false := (hi.guard_eq_inTx .P).trans idle
  have room := State.hasRoom_of_empty view (hi.pending_of_idle (sd := .P) idle) empty short
  have published := hi.committed_publish (s.readPeer .P) room fits
  rw [State.committed_of_empty empty, List.nil_append] at published
  have occ : s.head + n - s.tail = n := by rw [empty, BitVec.add_comm, BitVec.add_sub_cancel]
  refine ⟨_, exec_pWriteAtomic_of_room fits idle free room ne, ?_, published, occ, rfl⟩
  rw [fits, ← Response.ok_eq]
  rfl

/-- A read of as many bytes as are committed returns the stream and empties the block. -/
theorem State.Inv.exec_cReadAtomic_of_stream (hi : s.Inv) (view : s.cfg.peerView = .current) (idle : s.cIntx = false)
    (stream : s.committed = payload.map some) (occ : s.occ = n) (fits : payload.length = n.toNat) (ne : n ≠ 0) :
    ∃ u, exec (.cReadAtomic n) s = .next u ∧
      u.responses = s.responses ++ [(.C, Spec.response .ok payload.length [] 0 payload)] ∧ u.head = u.tail := by
  have free : s.rb = false := (hi.guard_eq_inTx .C).trans idle
  have count : s.occ.toNat ≤ Spec.cap s := s.cap_eq ▸ hi.1
  have room := State.hasRoom_of_committed view (hi.pending_of_idle (sd := .C) idle) count (congrArg _ occ).ge
  have bytes : s.copyOut (s.tail &&& s.mask) n.toNat = payload :=
    (State.readsFrom_of_copyOut (r := { Response.ok n with rbytes := s.copyOut (s.tail &&& s.mask) n.toNat }) rfl
      (s.and_mask_modEq s.tail)).rbytes_eq stream fits.symm
  have emptied : s.head = s.tail + n := by rw [← occ, State.occ, BitVec.add_comm, BitVec.sub_add_cancel]
  refine ⟨_, exec_cReadAtomic_of_room idle free room ne, ?_, emptied⟩
  rw [bytes, fits, Response.ok_eq]
  rfl

end

/-- Settles O52: the write leaves its payload as the whole stream, which the read returns. -/
theorem atomicRoundTripReturnsTheBytes : Obligations.AtomicRoundTripReturnsTheBytes := by
  intro s payload hi view empty pIdle cIdle nonempty short
  have cap := s.two_pow_le
  have pos := List.length_pos_iff.mpr nonempty
  have bound : payload.length < 2 ^ 64 := by
    simp only [Spec.cap] at short
    omega
  have fits : payload.length = (BitVec.ofNat 64 payload.length).toNat := by
    rw [BitVec.toNat_ofNat, Nat.mod_eq_of_lt bound]
  have ne : BitVec.ofNat 64 payload.length ≠ 0 := by bv_omega
  obtain ⟨t, written, answer, stream, occ, cfg⟩ :=
    hi.exec_pWriteAtomic_of_empty view empty pIdle fits ne (fits ▸ short)
  have does := exec_does _ s t written
  obtain ⟨-, -, (cIntx : t.cIntx = s.cIntx), -, -⟩ := does.other_side
  obtain ⟨u, read, answer', emptied⟩ :=
    (does.inv hi).exec_cReadAtomic_of_stream (cfg ▸ view) (cIntx.trans cIdle) stream occ fits ne
  refine ⟨t, u, written, read, ?_, emptied⟩
  rw [answer', answer, List.append_assoc]
  rfl

end Sys2Proof.Machine
end

section
/-! SUPPORT. A producer's transaction that ends in `CANCEL` (spec/42_producer.md R145; spec/95_test_vectors.md V7). -/

namespace Sys2Proof.Machine

/-! ### Runs -/

theorem runAll_append (is js : List Instr) (s : State) :
    Spec.runAll (is ++ js) s = (Spec.runAll is s).bind (Spec.runAll js) := by
  induction is generalizing s with
  | nil => rfl
  | cons i is ih =>
    obtain ⟨t, next⟩ := exec_next i s
    simp only [List.cons_append, Spec.runAll, next, ih]

theorem runAll_cons {i : Instr} {s t : State} (next : exec i s = .next t) (is : List Instr) :
    Spec.runAll (i :: is) s = Spec.runAll is t := by
  simp only [Spec.runAll, next]

/-! ### What the commands of a cancelled transaction may change -/

/-- `t` is `s` but for the producer's transaction registers, the `P_ARITH` bit and the responses. -/
def State.TransactsTo (s t : State) : Prop :=
  ∃ wb inTx pending seen fault responses, (fault = s.fault ∨ fault = s.fault ||| 0x8) ∧
    t = { s with
      wb := wb, pIntx := inTx, pPending := pending, pTailSeen := seen, fault := fault, responses := responses }

section
variable {s t : State}

theorem State.TransactsTo.refl (s : State) : s.TransactsTo s :=
  ⟨_, _, _, _, _, _, .inl rfl, rfl⟩

theorem State.TransactsTo.trans {u : State} (h : s.TransactsTo t) (h' : t.TransactsTo u) : s.TransactsTo u := by
  obtain ⟨_, _, _, _, _, _, first, rfl⟩ := h
  obtain ⟨_, _, _, _, _, _, second, rfl⟩ := h'
  refine ⟨_, _, _, _, _, _, ?_, rfl⟩
  rcases first with rfl | rfl <;> rcases second with rfl | rfl <;> simp [BitVec.or_assoc]

/-- `START` of an idle producer opens its transaction (R141). -/
theorem State.transactsTo_startTx (idle : s.pIntx = false) (free : s.wb = false) :
    s.TransactsTo (s.startTx .P) ∧ (s.startTx .P).pIntx = true := by
  rw [s.startTx_idle .P idle free]
  exact ⟨⟨_, _, _, _, _, _, .inl rfl, rfl⟩, rfl⟩

/-- An access within the transaction leaves it open, whatever it answers (R134). -/
theorem State.transactsTo_accessTx (inTx : s.pIntx = true) (size : Word) (ap : Bool) :
    s.TransactsTo (s.accessTx .P size ap) ∧ (s.accessTx .P size ap).pIntx = true := by
  rw [State.accessTx_open (sd := .P) inTx]
  rcases s.accessCore_cases .P size ap with ⟨-, eq⟩ | ⟨-, -, -, eq⟩ | ⟨-, -, -, eq⟩ | ⟨-, -, -, -, eq⟩ <;> rw [eq]
  · exact ⟨⟨_, _, _, _, _, _, .inr rfl, rfl⟩, inTx⟩
  · exact ⟨⟨_, _, _, _, _, _, .inl rfl, rfl⟩, inTx⟩
  · exact ⟨⟨_, _, _, _, _, _, .inl rfl, rfl⟩, inTx⟩
  · exact ⟨⟨_, _, _, _, _, _, .inl rfl, rfl⟩, inTx⟩

/-- `CANCEL` closes the transaction with nothing pending (R145). -/
theorem State.transactsTo_cancelTx (inTx : s.pIntx = true) :
    s.TransactsTo (s.cancelTx .P) ∧
      (s.cancelTx .P).pIntx = false ∧ (s.cancelTx .P).wb = false ∧ (s.cancelTx .P).pPending = 0 := by
  rw [s.cancelTx_open .P inTx]
  exact ⟨⟨_, _, _, _, _, _, .inl rfl, rfl⟩, rfl, rfl, rfl⟩

/-- The command that asks for bytes, all of them or as many as are free. -/
theorem exec_access (ap : Bool) (size : Word) (s : State) :
    exec (if ap then .pAccessPart size else .pAccess size) s = .next (s.accessTx .P size ap) := by
  cases ap <;> rfl

/-- Any accesses within the transaction. -/
theorem runAll_accesses (requests : List (Bool × Word)) (inTx : s.pIntx = true) :
    ∃ t, Spec.runAll (requests.map fun q => if q.1 then .pAccessPart q.2 else .pAccess q.2) s = some t ∧
      s.TransactsTo t ∧ t.pIntx = true := by
  induction requests generalizing s with
  | nil => exact ⟨s, rfl, .refl s, inTx⟩
  | cons q requests ih =>
    obtain ⟨ap, size⟩ := q
    obtain ⟨first, stillInTx⟩ := State.transactsTo_accessTx inTx size ap
    obtain ⟨t, run, rest, openAtEnd⟩ := ih stillInTx
    exact ⟨t, (runAll_cons (exec_access ap size s) _).trans run, first.trans rest, openAtEnd⟩

/-- The whole transaction, from `START` to `CANCEL`. -/
theorem runAll_cancelled (requests : List (Bool × Word)) (idle : s.pIntx = false) (free : s.wb = false) :
    ∃ t, Spec.runAll
        (.pStart :: (requests.map fun q => if q.1 then .pAccessPart q.2 else .pAccess q.2) ++ [.pCancel]) s = some t ∧
      s.TransactsTo t ∧ t.pIntx = false ∧ t.wb = false ∧ t.pPending = 0 := by
  obtain ⟨opens, inTx⟩ := State.transactsTo_startTx idle free
  obtain ⟨t, run, reserves, stillInTx⟩ := runAll_accesses requests inTx
  obtain ⟨closes, closed⟩ := State.transactsTo_cancelTx stillInTx
  refine ⟨t.cancelTx .P, ?_, (opens.trans reserves).trans closes, closed⟩
  rw [List.cons_append, runAll_cons (t := s.startTx .P) rfl, runAll_append, run]
  rfl

end

/-- Settles O53: between `START` and `CANCEL` only the transaction registers and a `FAULT` bit move, and `CANCEL` clears
the first but for the snapshot. -/
theorem cancelUndoesAnyAccesses : Obligations.CancelUndoesAnyAccesses := by
  intro s requests idle free none
  obtain ⟨t, run, ⟨_, _, _, _, _, _, reported, rfl⟩, inTx, wb, pending⟩ := runAll_cancelled requests idle free
  refine ⟨_, run, rfl, rfl, rfl, inTx, wb, pending, ?_, rfl, rfl, rfl, rfl, rfl, rfl, reported⟩
  exact congrArg (s.capacity - (s.head - s.tail) - ·) (pending.trans none.symm)

end Sys2Proof.Machine
end

section
/-! SUPPORT. The transaction and access commands of the consumer (spec/43_consumer.md R161 to R165), the mirror of the
producer's. -/

namespace Sys2Proof.Machine

/-! ### The transaction -/

/-- Settles O17: the flag and the guard name the outcome of `START`. -/
theorem consumerStartOpensTheTransaction : Obligations.ConsumerStartOpensTheTransaction := by
  refine fun s => ⟨fun a b p => decode_of_row .C 0x81 rfl (by decide) rfl rfl, fun inTx => ?_, fun idle held => ?_,
    fun idle free => ?_⟩ <;> refine congrArg Host.Outcome.next ?_
  · exact (s.startTx_busy .C inTx).trans (s.fail_misuse_eq_reject .C _ _)
  · exact (s.startTx_held .C idle held).trans (s.fail_eq_reject .C .wouldBlock)
  · exact s.startTx_idle .C idle free

/-- Settles O19, by the check for an open transaction. -/
theorem consumerCommitFreesThePending : Obligations.ConsumerCommitFreesThePending := by
  refine fun s => ⟨fun a b p => decode_of_row .C 0x83 rfl (by decide) rfl rfl, fun idle => ?_, fun inTx => ?_⟩ <;>
    refine congrArg Host.Outcome.next ?_
  · exact (s.withTx_idle .C _ idle).trans (s.fail_misuse_eq_reject .C _ _)
  · rw [s.commitTx_open .C inTx, Response.ok_eq]
    rfl

/-- Settles O21, by the check for an open transaction. -/
theorem consumerCancelGivesThePendingBack : Obligations.ConsumerCancelGivesThePendingBack := by
  refine fun s => ⟨fun a b p => decode_of_row .C 0x84 rfl (by decide) rfl rfl, fun idle => ?_, fun inTx => ?_⟩ <;>
    refine congrArg Host.Outcome.next ?_
  · exact (s.withTx_idle .C _ idle).trans (s.fail_misuse_eq_reject .C _ _)
  · rw [s.cancelTx_open .C inTx, Response.ok_eq]
    rfl

/-! ### The accesses -/

/-- Settles O24, by what the access core answers when it must serve all or nothing. -/
theorem consumerAccessServesAllOrNothing : Obligations.ConsumerAccessServesAllOrNothing := by
  refine fun s size => ⟨fun b p => decode_of_row .C 0x82 rfl (by decide) rfl rfl, fun idle => ?_, fun inTx bad => ?_,
    fun inTx arith lack => ?_, fun inTx arith enough => ?_⟩ <;> refine congrArg Host.Outcome.next ?_
  · exact (State.accessTx_idle (sd := .C) idle).trans (s.fail_misuse_eq_reject .C _ _)
  · exact (State.accessTx_arith (sd := .C) inTx bad).trans (s.fail_misuse_eq_reject .C _ _)
  · exact (State.accessTx_outOfSpace (sd := .C) inTx arith lack).trans (s.fail_eq_reject .C .outOfSpace)
  · exact State.accessTx_served (sd := .C) inTx arith (fun _ => enough) (Nat.min_eq_left enough).symm

/-- Settles O25, by what the access core answers when it may serve less. -/
theorem consumerPartialAccessServesWhatIsThere : Obligations.ConsumerPartialAccessServesWhatIsThere := by
  refine fun s size => ⟨fun b p => decode_of_row .C 0x92 rfl (by decide) rfl rfl, fun idle => ?_, fun inTx bad => ?_,
    fun inTx arith n served => ?_⟩ <;> refine congrArg Host.Outcome.next ?_
  · exact (State.accessTx_idle (sd := .C) idle).trans (s.fail_misuse_eq_reject .C _ _)
  · exact (State.accessTx_arith (sd := .C) inTx bad).trans (s.fail_misuse_eq_reject .C _ _)
  · exact State.accessTx_served (sd := .C) inTx arith (fun all => nomatch all) served

end Sys2Proof.Machine
end

section
/-! SUPPORT. The copies of the read commands in the vocabulary of the statements (spec/43_consumer.md R166 to R169). -/

namespace Sys2Proof.Machine

/-! ### Copies within a transaction -/

section
variable {s : State} {size : Word} {ap : Bool} {n : Nat}

theorem State.readTx_ok (ok : (s.accessCore .C size ap).status = .ok) :
    s.readTx size ap = (s.accessCore .C size ap).after.respond .C { (s.accessCore .C size ap).response with
      rbytes := s.copyOut (s.start .C) (s.accessCore .C size ap).n.toNat } := by
  simp only [State.readTx, ok]

theorem State.readTx_arith (bad : ¬ Spec.arithOk s .C) :
    s.readTx size ap = s.fail .C .invalidArgument (some .arith) := by
  simp only [State.readTx, State.accessCore_arith bad]
  rfl

theorem State.readTx_outOfSpace (arith : Spec.arithOk s .C) (lack : Spec.avail s .C < size.toNat) :
    s.readTx size false = s.fail .C .outOfSpace none := by
  simp only [State.readTx, State.accessCore_outOfSpace arith lack]
  rfl

/-- What a read that serves `n` bytes does: the access of R134, and the `n` bytes returned from where the next byte
stood. -/
theorem State.readTx_served (arith : Spec.arithOk s .C) (enough : ap = false → size.toNat ≤ Spec.avail s .C)
    (served : n = min size.toNat (Spec.avail s .C)) :
    ∃ rb, s.readTx size ap = Spec.answer (Spec.grown s .C n) .C (Spec.response .ok n (Spec.served s .C n) 0 rb) ∧
      Spec.Loaded s.ram (Spec.cap s) (Spec.start s .C) n rb := by
  obtain ⟨ok, count, response, after⟩ := State.accessCore_served arith enough served
  refine ⟨s.copyOut (s.start .C) n, ?_, ?_⟩
  · rw [State.readTx_ok ok, response, after, count, State.respond_eq_answer]
    rfl
  · rw [← s.start_toNat]
    exact s.loaded_copyOut _ n

end

/-- Settles O28: the access serves all that is asked for, and those bytes are returned. -/
theorem consumerReadReturnsTheWindow : Obligations.ConsumerReadReturnsTheWindow := by
  refine fun s size => ⟨fun b p => decode_of_row .C 0x85 rfl (by decide) rfl rfl, fun idle => ?_, fun inTx bad => ?_,
    fun inTx arith lack => ?_, fun inTx arith enough => ?_⟩
  · exact congrArg Host.Outcome.next ((s.withTx_idle .C _ idle).trans (s.fail_misuse_eq_reject .C _ _))
  · exact congrArg Host.Outcome.next ((s.withTx_open .C _ inTx).trans
      ((State.readTx_arith bad).trans (s.fail_misuse_eq_reject .C _ _)))
  · exact congrArg Host.Outcome.next ((s.withTx_open .C _ inTx).trans
      ((State.readTx_outOfSpace arith lack).trans (s.fail_eq_reject .C _)))
  · obtain ⟨rb, read, loaded⟩ := State.readTx_served (ap := false) arith (fun _ => enough) (Nat.min_eq_left enough).symm
    exact ⟨rb, congrArg Host.Outcome.next ((s.withTx_open .C _ inTx).trans read), loaded⟩

/-- Settles O29: the access serves what is there, and those bytes are returned. -/
theorem consumerPartialReadReturnsWhatIsThere : Obligations.ConsumerPartialReadReturnsWhatIsThere := by
  refine fun s size => ⟨fun b p => decode_of_row .C 0x95 rfl (by decide) rfl rfl, fun idle => ?_, fun inTx bad => ?_,
    fun inTx arith n served => ?_⟩
  · exact congrArg Host.Outcome.next ((s.withTx_idle .C _ idle).trans (s.fail_misuse_eq_reject .C _ _))
  · exact congrArg Host.Outcome.next ((s.withTx_open .C _ inTx).trans
      ((State.readTx_arith bad).trans (s.fail_misuse_eq_reject .C _ _)))
  · obtain ⟨rb, read, loaded⟩ := State.readTx_served (ap := true) arith (fun all => nomatch all) served
    exact ⟨rb, congrArg Host.Outcome.next ((s.withTx_open .C _ inTx).trans read), loaded⟩

/-! ### The atomic read -/

section
variable {s : State} {size : Word}

theorem State.readAtomic_arith (bad : ¬ Spec.arithOk s .C) :
    s.readAtomic size = s.fail .C .invalidArgument (some .arith) := by
  simp [State.readAtomic, State.arithBad_of_not_arithOk bad]

theorem State.readAtomic_outOfSpace (arith : Spec.arithOk s .C) (lack : Spec.avail s .C < size.toNat) :
    s.readAtomic size = s.fail .C .outOfSpace none := by
  have short : s.cAvail (s.readPeer .C) < size := by
    rw [BitVec.lt_def]
    exact (State.avail_toNat arith).trans_lt lack
  simp [State.readAtomic, State.arithBad_eq_false_iff.mpr arith, short]

theorem State.readAtomic_zero (arith : Spec.arithOk s .C) : s.readAtomic 0 = s.respond .C (.ok 0) := by
  simp [State.readAtomic, State.arithBad_eq_false_iff.mpr arith, BitVec.lt_def]

/-- The read there is enough for, field by field, with what is returned (R168). -/
theorem State.readAtomic_served (arith : Spec.arithOk s .C) (ne : size ≠ 0) (enough : size.toNat ≤ Spec.avail s .C) :
    ∃ rb, s.readAtomic size =
        Spec.answer { s with tail := s.tail + size, cHeadSeen := s.readPeer .C } .C
          (Spec.response .ok size.toNat [] 0 rb) ∧
      Spec.Loaded s.ram (Spec.cap s) (s.tail.toNat % Spec.cap s) size.toNat rb := by
  refine ⟨s.copyOut (s.tail &&& s.mask) size.toNat, ?_, ?_⟩
  · rw [State.readAtomic_of_room ((State.hasRoom_iff arith).mpr enough) ne, Response.ok_eq]
    rfl
  · rw [← s.and_mask_toNat]
    exact s.loaded_copyOut _ _

end

/-- Settles O32: the checks in their order, then the copy that there are enough bytes for. -/
theorem consumerAtomicReadIsAllOrNothing : Obligations.ConsumerAtomicReadIsAllOrNothing := by
  refine fun s size _ => ⟨fun b p => decode_of_row .C 0x86 rfl (by decide) rfl rfl, fun inTx => ?_, fun idle held => ?_,
    fun idle free bad => ?_, fun idle free arith lack => ?_, fun idle free arith zero => ?_,
    fun idle free arith ne enough => ?_⟩
  · exact congrArg Host.Outcome.next ((s.withIdle_busy .C _ inTx).trans (s.fail_misuse_eq_reject .C _ _))
  · exact congrArg Host.Outcome.next ((s.withIdle_held .C _ idle held).trans (s.fail_eq_reject .C _))
  · exact congrArg Host.Outcome.next ((s.withIdle_idle .C _ idle free).trans
      ((State.readAtomic_arith bad).trans (s.fail_misuse_eq_reject .C _ _)))
  · exact congrArg Host.Outcome.next ((s.withIdle_idle .C _ idle free).trans
      ((State.readAtomic_outOfSpace arith lack).trans (s.fail_eq_reject .C _)))
  · subst zero
    exact congrArg Host.Outcome.next ((s.withIdle_idle .C _ idle free).trans (State.readAtomic_zero arith))
  · obtain ⟨rb, read, loaded⟩ := State.readAtomic_served arith ne enough
    exact ⟨rb, congrArg Host.Outcome.next ((s.withIdle_idle .C _ idle free).trans read), loaded⟩

/-! ### The byte read -/

section
variable {s : State} {o : Word}

/-- A written byte reads as its value (spec/20_memory.md R50). -/
theorem State.memRead_of_written {b : Byte} (written : s.ram.read? o.toNat = some b) (k : Nat) : s.memRead o k = b := by
  simp [State.memRead, written]

/-- Past the check of the offset, the transaction decides. -/
theorem exec_cDread_legal (legal : o.toNat < Spec.cap s) :
    exec (.cDread o) s = .next (s.withTx .C
      (if s.cWin o then s.respond .C { Response.ok 1 with rdata := (s.memRead o 0).setWidth 64 }
        else s.fail .C .invalidArgument (some .window))) :=
  congrArg Host.Outcome.next (s.withOffset_legal .C o _ (s.lt_capacity_iff.mpr legal))

/-- The answer of a byte read, its byte zero-extended (R169). -/
theorem Response.ok_rdata_eq (v : Byte) :
    { Response.ok 1 with rdata := v.setWidth 64 } = Spec.response .ok 1 [] (BitVec.ofNat 64 v.toNat) [] := by
  rw [Response.ok_eq, ← BitVec.ofNat_toNat]
  rfl

end

/-- Settles O34: the checks in their order, the last of them whether the offset is one of the open window's. -/
theorem byteReadStaysInTheWindow : Obligations.ByteReadStaysInTheWindow := by
  refine fun s o => ⟨fun b p => decode_of_row .C 0x89 rfl (by decide) rfl rfl, fun illegal => ?_, fun legal idle => ?_,
    fun legal inTx outside => ?_, fun legal inTx inside => ⟨s.memRead o 0, ?_, fun b written =>
    State.memRead_of_written written 0⟩⟩
  · exact congrArg Host.Outcome.next
      ((s.withOffset_illegal .C o _ (s.capacity_le_iff.mpr illegal)).trans (s.fail_eq_reject .C _))
  · rw [exec_cDread_legal legal, s.withTx_idle .C _ idle, s.fail_misuse_eq_reject]
    rfl
  · have beyond : ¬ s.cWin o = true := mt (State.inWindow_iff_specInWindow _ _ legal).mp outside
    rw [exec_cDread_legal legal, s.withTx_open .C _ inTx, if_neg beyond, s.fail_misuse_eq_reject]
    rfl
  · have within : s.cWin o = true := (State.inWindow_iff_specInWindow _ _ legal).mpr inside
    rw [exec_cDread_legal legal, s.withTx_open .C _ inTx, if_pos within, Response.ok_rdata_eq, State.respond_eq_answer]

end Sys2Proof.Machine
end

section
/-! SUPPORT. The commands that change nothing: the no-operations, the register reads over the register map
(spec/10_state.md R32) and the probes over the window predicates (spec/44_status.md R200 to R205). -/

namespace Sys2Proof.Machine

/-! ### The no-operations -/

/-- Settles O12: the NOP words fix no operand, and the answer is `Ok(0)`. -/
theorem nopAnswersOkAndChangesNothing : Obligations.NopAnswersOkAndChangesNothing := by
  refine fun s => ⟨fun a b p => ⟨decode_of_row .P 0x00 rfl (by decide) rfl rfl,
    decode_of_row .C 0x80 rfl (by decide) rfl rfl⟩, ?_, ?_⟩ <;> refine congrArg Host.Outcome.next ?_
  · exact (s.respond_eq_answer .P _).trans (congrArg _ (Response.ok_eq 0))
  · exact (s.respond_eq_answer .C _).trans (congrArg _ (Response.ok_eq 0))

/-! ### The register map -/

/-- The registers of the map in the order of their indices (R32), in the model's own terms. -/
def State.registerMap (s : State) : List Word :=
  [s.capacity, s.mask, s.head, s.tail, s.occ, s.free, s.flags, s.pPending, s.cPending, s.pTailSeen, s.cHeadSeen,
    s.fault, s.pAvail s.tail, s.cAvail s.head, s.start .P, s.start .C]

/-- `RegValue` looks an index up in the map; the reserved ones lie beyond its end (R202). -/
theorem State.regValue_eq_registerMap (s : State) (reg : BitVec 8) : s.regValue reg = s.registerMap[reg.toNat]? := by
  unfold State.regValue
  split
  case h_17 =>
    have beyond : 16 ≤ reg.toNat := by
      simp only [imp_false] at *
      omega
    exact (List.getElem?_eq_none beyond).symm
  all_goals next index => rw [index]; rfl

section
variable {s : State}

theorem ofNat_eq_of_toNat_eq {x : Word} {n : Nat} (number : x.toNat = n) : BitVec.ofNat 64 n = x := by
  rw [← number, BitVec.ofNat_toNat, BitVec.setWidth_eq]

/-- `P_AVAIL` does not wrap: the pending bytes lie in free space (R129). -/
theorem State.Inv.pAvail_toNat (hi : s.Inv) :
    (s.pAvail s.tail).toNat = Spec.cap s - s.occ.toNat - s.pPending.toNat := by
  have pending := hi.free_of_pending
  have within : s.pPending ≤ s.free := by rw [BitVec.le_def, hi.free_toNat]; omega
  rw [← hi.free_toNat]
  exact BitVec.toNat_sub_of_le within

/-- `C_AVAIL` does not wrap: the pending bytes are committed ones (R130). -/
theorem State.Inv.cAvail_toNat (hi : s.Inv) : (s.cAvail s.head).toNat = s.occ.toNat - s.cPending.toNat :=
  BitVec.toNat_sub_of_le (hi.committed_of_fits (s.observable_seen .C) (hi.fits_pending .C))

/-- Where the invariants hold, the map is the spec's, whose differences are those of numbers (R202). -/
theorem State.Inv.registers_eq (hi : s.Inv) : Spec.registers s = s.registerMap := by
  rw [Spec.registers, ← State.occ, ofNat_eq_of_toNat_eq s.mask_toNat, ofNat_eq_of_toNat_eq hi.free_toNat,
    ofNat_eq_of_toNat_eq hi.pAvail_toNat, ofNat_eq_of_toNat_eq hi.cAvail_toNat,
    ofNat_eq_of_toNat_eq (s.start_toNat .P), ofNat_eq_of_toNat_eq (s.start_toNat .C)]
  rfl

/-! ### The register reads -/

theorem State.readReg_defined {reg : BitVec 8} {v : Word} (value : s.regValue reg = some v) (port : Side) :
    s.readReg port reg = Spec.answer s port (Spec.response .ok 0 [] v []) := by
  rw [State.readReg, value]
  rfl

theorem State.readReg_reserved {reg : BitVec 8} (reserved : s.regValue reg = none) (port : Side) :
    s.readReg port reg = Spec.reject s port .invalidArgument 0 := by
  rw [State.readReg, reserved]
  exact s.fail_eq_reject port _

end

/-- The word of a register read decodes to the read of the index in its `REG` field (R75, R88). -/
theorem decode_rdreg {port : Side} {c : Command} {low : CmdWord} {reg : BitVec 8} {i : Instr}
    (word : c.word = low ||| reg.setWidth 32 <<< 8) (lowByte : low.toNat = 7 + 128 * Spec.sideBit port)
    (row : selectRow port 7 false reg c = .instr i) (fits : i.wellFormed = true) : decode port c = .instr i := by
  rw [decode_of_decodeWord ((decodeWord_or_reg word lowByte).trans row), if_pos fits]

/-- Settles O13: a defined index is a place in the register map, a reserved one lies beyond its end. -/
theorem registerReadReturnsTheRegister : Obligations.RegisterReadReturnsTheRegister := by
  refine fun s reg => ⟨fun a b p => ⟨decode_rdreg (low := 0x07) rfl rfl rfl rfl,
    decode_rdreg (low := 0x87) rfl rfl rfl rfl⟩, fun defined => ?_, fun reserved => ?_⟩
  · have entry : s.registerMap[reg.toNat]? = some s.registerMap[reg.toNat] := List.getElem?_eq_getElem defined
    have value := (s.regValue_eq_registerMap reg).trans entry
    exact ⟨_, congrArg Host.Outcome.next (State.readReg_defined value .P),
      congrArg Host.Outcome.next (State.readReg_defined value .C), fun hi => by rw [hi.registers_eq, entry]⟩
  · have absent := (s.regValue_eq_registerMap reg).trans (List.getElem?_eq_none reserved)
    exact ⟨congrArg Host.Outcome.next (State.readReg_reserved absent .P),
      congrArg Host.Outcome.next (State.readReg_reserved absent .C)⟩

/-! ### The probes -/

/-- What `PROBE` returns, bit by bit (R204). -/
theorem State.getLsbD_probeBits (s : State) (o : Word) (k : Nat) :
    (s.probeBits o).getLsbD k =
      (s.validAt o && decide (0 = k) || s.freeAt o && decide (1 = k) || s.pWin o && decide (2 = k) ||
        s.cWin o && decide (3 = k)) := by
  simp [State.probeBits, getLsbD_bitAt]

theorem State.getLsbD_probeBits_fields (s : State) (o : Word) :
    (s.probeBits o).getLsbD 0 = s.validAt o ∧ (s.probeBits o).getLsbD 1 = s.freeAt o ∧
      (s.probeBits o).getLsbD 2 = s.pWin o ∧ (s.probeBits o).getLsbD 3 = s.cWin o := by
  simp only [s.getLsbD_probeBits]
  simp

theorem State.getLsbD_probeBits_above (s : State) (o : Word) (k : Nat) (h : 4 ≤ k) :
    (s.probeBits o).getLsbD k = false := by
  have ne : ∀ i < 4, i ≠ k := fun i hi => by omega
  simp [s.getLsbD_probeBits, ne]

section
variable {s : State} {o : Word}

/-- `FreeAt` names the free bytes where no more than `CAPACITY` are occupied, so that `Free()` does not wrap (R132). -/
theorem State.freeAt_iff_specInWindow (legal : o.toNat < Spec.cap s) (count : s.occ.toNat ≤ Spec.cap s) :
    s.freeAt o = true ↔ Spec.InWindow (Spec.cap s) o.toNat s.head.toNat (Spec.cap s - s.occ.toNat) := by
  have free : s.free.toNat = Spec.cap s - s.occ.toNat := by
    rw [s.cap_eq] at count ⊢
    exact BitVec.toNat_sub_of_le count
  rw [← free]
  exact State.inWindow_iff_specInWindow _ _ legal

theorem State.probe_illegal (illegal : Spec.cap s ≤ o.toNat) (port : Side) :
    s.probe port o = Spec.reject s port .invalidArgument 0 :=
  (s.withOffset_illegal port o _ (s.capacity_le_iff.mpr illegal)).trans (s.fail_eq_reject port _)

theorem State.probe_legal (legal : o.toNat < Spec.cap s) (port : Side) :
    s.probe port o = Spec.answer s port (Spec.response .ok 0 [] (s.probeBits o) []) :=
  s.withOffset_legal port o _ (s.lt_capacity_iff.mpr legal)

end

/-- Settles O15: each bit is the predicate of one window, and under the invariants the windows lie on the two sides of
the partition. -/
theorem probeReportsTheWindows : Obligations.ProbeReportsTheWindows := by
  refine fun s o => ⟨fun b p => ⟨decode_of_row .P 0x0A rfl (by decide) rfl rfl,
    decode_of_row .C 0x8A rfl (by decide) rfl rfl⟩, fun illegal => ?_, fun legal => ⟨s.probeBits o, ?_⟩⟩
  · exact ⟨congrArg Host.Outcome.next (State.probe_illegal illegal .P),
      congrArg Host.Outcome.next (State.probe_illegal illegal .C)⟩
  · obtain ⟨valid, free, pWin, cWin⟩ := s.getLsbD_probeBits_fields o
    rw [valid, free, pWin, cWin]
    refine ⟨congrArg Host.Outcome.next (State.probe_legal legal .P),
      congrArg Host.Outcome.next (State.probe_legal legal .C), State.inWindow_iff_specInWindow _ _ legal,
      State.freeAt_iff_specInWindow legal, State.inWindow_iff_specInWindow _ _ legal,
      State.inWindow_iff_specInWindow _ _ legal, s.getLsbD_probeBits_above o, fun hi => ?_⟩
    obtain ⟨partition, producer, consumer, -⟩ := validAndFreePartitionTheRam s o hi legal
    exact ⟨by rw [partition, Bool.not_not], producer, consumer⟩

end Sys2Proof.Machine
end

section
/-! SUPPORT. Every command and every step has a next state (spec/60_exceptions.md R244), what a failing command changes
(R220, R223), and the bits of `FAULT` over a step (R222, R243). -/

namespace Sys2Proof.Machine

/-- Settles O11: a step is a reset, or nothing, or what one command does, and every command has a next state. -/
theorem everyStepHasANextState : Obligations.EveryStepHasANextState := by
  refine ⟨exec_next, fun s => ?_⟩
  rcases step_cases s with ⟨-, eq⟩ | ⟨-, -, eq⟩ | ⟨f, i, -, -, -, eq⟩ | ⟨f, -, -, -, -, eq⟩
  · exact ⟨_, eq⟩
  · exact ⟨_, eq⟩
  · obtain ⟨t, next⟩ := exec_next i f.after
    exact ⟨t, eq.trans next⟩
  · exact ⟨_, eq⟩

/-! ### What a failing command changes -/

/-- The producer's misuses have bits 0 to 3 of `FAULT` (spec/10_state.md R34). -/
theorem faultBit_P_lt (m : Misuse) : faultBit .P m < 4 := by
  cases m <;> decide

/-- The consumer's misuses have bits 8 to 11 of `FAULT` (R34). -/
theorem faultBit_C_bounds (m : Misuse) : 8 ≤ faultBit .C m ∧ faultBit .C m < 12 := by
  cases m <;> decide

/-- A failing command is the state with at most one bit of its side set and the status answered (R220). -/
theorem State.fail_cases (s : State) (sd : Side) (st : Status) (misuse : Option Misuse) :
    ∃ bits, s.fail sd st misuse = Spec.reject s sd st bits ∧
      (bits = 0 ∨ ∃ m, bits = BitVec.twoPow 64 (faultBit sd m)) := by
  cases misuse with
  | none => exact ⟨0, s.fail_eq_reject sd st, .inl rfl⟩
  | some m => exact ⟨_, s.fail_misuse_eq_reject sd st m, .inr ⟨m, rfl⟩⟩

/-- Settles O45: a command ends by answering `Ok`, or as a failing command that sets at most the bit of its misuse. -/
theorem failingCommandChangesOnlyAFaultBit : Obligations.FailingCommandChangesOnlyAFaultBit := by
  intro i s t h
  cases exec_ends i s t h with
  | failed st misuse =>
    obtain ⟨bits, rejected, one⟩ := s.fail_cases i.side st misuse
    rw [rejected]
    refine ⟨_, rfl, fun _ => ⟨rfl, bits, rfl, one.imp_right fun ⟨m, eq⟩ => ⟨faultBit i.side m, eq, ?_⟩⟩⟩
    cases i.side with
    | P => exact faultBit_P_lt m
    | C => exact faultBit_C_bounds m
  | answered u r ok kept =>
    exact ⟨r, congrArg (· ++ [(i.side, r)]) kept, fun failed => absurd ok failed⟩

/-! ### The bits of `FAULT` stay set -/

section
variable {s t : State} {sd : Side}

/-- A command clears no bit of `FAULT`. -/
theorem State.Does.fault_and (h : s.Does sd t) : t.fault &&& s.fault = s.fault := by
  obtain ⟨u, m, r, moves, -, rfl⟩ := h
  change u.fault &&& s.fault = s.fault
  rcases moves.fault_cases with eq | ⟨misuse, eq⟩ <;> rw [eq]
  · exact BitVec.and_self
  · ext k
    simp +contextual

/-- Taking a command leaves `FAULT` as it was. -/
theorem State.fault_fetch {f : Fetched} (fetched : s.fetch = some f) : f.after.fault = s.fault := by
  obtain ⟨rest, gs, left, goal, eq⟩ := s.fetch_after f fetched
  rw [eq]
  cases f.port <;> rfl

/-- A state with a misuse recorded is no accepted final state (R243). -/
theorem State.accepted_of_fault (set : s.fault ≠ 0) : s.accepted = false := by
  rw [State.accepted, beq_false_of_ne set, Bool.and_false]

end

/-- Settles O48: of what a step can do only the reset clears a bit of `FAULT`, and a bit that stays set keeps the state
from being accepted. -/
theorem faultBitsAreSticky : Obligations.FaultBitsAreSticky := by
  intro s t running h
  have sticky : t.fault &&& s.fault = s.fault := by
    cases fetched : s.fetch with
    | none =>
      obtain rfl : s = t := by simpa [step, running, fetched] using h
      exact BitVec.and_self
    | some f =>
      obtain ⟨t', next, does⟩ := step_of_fetch running fetched
      obtain rfl : t = t' := Host.Outcome.next.inj (h.symm.trans next)
      rw [← State.fault_fetch fetched]
      exact does.fault_and
  refine ⟨sticky, fun set => ⟨State.accepted_of_fault set, State.accepted_of_fault fun clear => set ?_⟩⟩
  rw [← sticky, clear]
  exact BitVec.zero_and

end Sys2Proof.Machine
end

section
/-! SUPPORT. The arbiter is weakly fair (spec/60_exceptions.md R241): the coming grants name a waiting port, or are used
up and a block is drawn that does (log entry 4). -/

namespace Sys2Proof.Machine

/-! ### The choices of the arbiter -/

theorem eq_other_of_ne : ∀ {sd port : Side}, sd ≠ port → port = sd.other
  | .P, .C, _ | .C, .P, _ => rfl
  | .P, .P, ne | .C, .C, ne => absurd rfl ne

section
variable {s t u : State} {sd port : Side}

theorem State.plan_of_grants {g : Side} {gs : List Side} (grants : s.grants = g :: gs) : s.plan = (g, gs) := by
  simp [State.plan, grants]

/-- A drawn block that begins with the other port goes on to this one. -/
theorem State.mem_plan_of_drawn (none : s.grants = []) (other : s.plan.1 ≠ port) : port ∈ s.plan.2 := by
  have block : s.plan.2 = List.replicate (Config.freeGrant s.tick).2 s.plan.1 ++ [s.plan.1.other] := by
    simp [State.plan, none]
  rw [block, ← eq_other_of_ne other]
  exact List.mem_append_right _ (List.mem_singleton_self port)

theorem State.grants_takeFrom (s : State) (port : Side) (c : Command) (rest : List Command) (gs : List Side) :
    (s.takeFrom port c rest gs).after.grants = gs := by
  obtain ⟨left, goal, planned⟩ := (s.take port rest gs).planRead_cases port c
  rw [State.takeFrom, planned]
  cases port <;> rfl

/-- A waiting port is passed over only by the arbiter's choice of the other, and taking that command leaves the choices
after it as the coming grants. -/
theorem State.plan_of_fetch_other {f : Fetched} (waiting : s.queue port ≠ []) (fetched : s.fetch = some f)
    (other : f.port ≠ port) : s.plan = (f.port, f.after.grants) := by
  unfold State.fetch at fetched
  split at fetched
  next => cases fetched
  next alone =>
    cases fetched
    cases port with
    | P => exact absurd rfl other
    | C => exact absurd alone waiting
  next alone _ =>
    cases fetched
    cases port with
    | P => exact absurd alone waiting
    | C => exact absurd rfl other
  next =>
    split at fetched <;> cases fetched
    next plan => rw [plan, s.grants_takeFrom]; rfl
    next plan => rw [plan, s.grants_takeFrom]; rfl

/-- Taking the other port's command leaves this port's queue as it was. -/
theorem State.queue_fetch_other {f : Fetched} (fetched : s.fetch = some f) (other : f.port ≠ port) :
    f.after.queue port = s.queue port := by
  obtain ⟨rest, gs, left, goal, eq⟩ := s.fetch_after f fetched
  obtain ⟨-, kept, -⟩ := s.queue_take_setLag f.port rest gs left goal
  rw [eq, eq_other_of_ne other]
  exact kept

/-- A move of the registers uses up no grant. -/
theorem State.Moves.grants_eq (h : s.Moves sd u) : u.grants = s.grants := by
  cases h <;> simp [State.incOwn, State.closeTx, State.endGuard]

theorem State.Does.grants_eq (h : s.Does sd t) : t.grants = s.grants := by
  obtain ⟨u, m, r, moves, -, rfl⟩ := h
  exact moves.grants_eq

end

/-! ### A run of steps -/

/-- In some step of the run a command of the port is taken. -/
def Served (run : Nat → State) (port : Side) : Prop :=
  ∃ k f, (run k).fetch = some f ∧ f.port = port

section
variable {run : Nat → State} {port : Side}
  (running : ∀ k, (run k).resetIn = false) (steps : Spec.IsRun run)
include running steps

/-- A step that serves the other port leaves this one waiting, and the arbiter's choices go on. -/
theorem served_or_waiting_next {k : Nat} (waiting : (run k).queue port ≠ []) :
    Served run port ∨ ((run k).plan.1 ≠ port ∧ (run (k + 1)).grants = (run k).plan.2 ∧
      (run (k + 1)).queue port ≠ []) := by
  obtain ⟨f, fetched⟩ : ∃ f, (run k).fetch = some f := by
    rw [← Option.ne_none_iff_exists', Ne, State.fetch_none]
    rintro ⟨pEmpty, cEmpty⟩
    cases port
    · exact waiting pEmpty
    · exact waiting cEmpty
  by_cases own : f.port = port
  · exact .inl ⟨k, f, fetched, own⟩
  · obtain ⟨t, ps, cs, next, eq⟩ := steps k
    obtain ⟨t', next', does⟩ := step_of_fetch (running k) fetched
    obtain rfl : t = t' := Host.Outcome.next.inj (next.symm.trans next')
    obtain ⟨-, queues⟩ := does.ports
    have still : t.queue port ≠ [] := by rwa [queues, State.queue_fetch_other fetched own]
    rw [State.plan_of_fetch_other waiting fetched own, eq]
    refine .inr ⟨own, does.grants_eq, ?_⟩
    cases port <;> exact List.append_ne_nil_of_left_ne_nil still _

/-- A waiting port that has a coming grant is served. -/
theorem served_of_mem_grants {gs : List Side} {k : Nat} (waiting : (run k).queue port ≠ [])
    (grants : (run k).grants = gs) (listed : port ∈ gs) : Served run port := by
  induction gs generalizing k with
  | nil => cases listed
  | cons g gs ih =>
    rcases served_or_waiting_next running steps waiting with served | ⟨other, rest, still⟩
    · exact served
    · rw [State.plan_of_grants grants] at other rest
      exact ih still rest ((List.mem_cons.mp listed).resolve_left (Ne.symm other))

/-- A waiting port is served, whatever grants are listed. -/
theorem served_of_waiting {gs : List Side} {k : Nat} (waiting : (run k).queue port ≠ [])
    (grants : (run k).grants = gs) : Served run port := by
  induction gs generalizing k with
  | nil =>
    rcases served_or_waiting_next running steps waiting with served | ⟨other, rest, still⟩
    · exact served
    · exact served_of_mem_grants running steps still rest (State.mem_plan_of_drawn grants other)
  | cons g gs ih =>
    rcases served_or_waiting_next running steps waiting with served | ⟨-, rest, still⟩
    · exact served
    · rw [State.plan_of_grants grants] at rest
      exact ih still rest

end

/-- Settles O8, by induction on the listed grants and then on the drawn block. -/
theorem waitingPortIsServed : Obligations.WaitingPortIsServed :=
  fun _ _ running waiting steps => served_of_waiting running steps waiting rfl

end Sys2Proof.Machine
end

section
/-! SUPPORT. What the consumer's protocol commands see (spec/70_reset_and_hazards.md R263): the registers of the
consumer's view, and of the data RAM only bytes of the committed stream. -/

namespace Sys2Proof.Machine

/-! ### The consumer's view -/

/-- The state with everything cleared but the registers that the consumer's protocol commands work on: the counters, the
consumer's own registers, the draw index and the plan of its peer reads. -/
def State.consumerView (s : State) : State :=
  { State.resetWith s.cfg with
    head := s.head, tail := s.tail, rb := s.rb, cIntx := s.cIntx, cPending := s.cPending, cHeadSeen := s.cHeadSeen
    tick := s.tick, cLagLeft := s.cLagLeft, cLagGoal := s.cLagGoal }

/-- From `s` and `s'` a consumer command gives the same response, and leaves the same view in `t` and `t'`. -/
def State.SameAnswer (s s' t t' : State) : Prop :=
  (∃ r, t.responses = s.responses ++ [(.C, r)] ∧ t'.responses = s'.responses ++ [(.C, r)]) ∧
    t.consumerView = t'.consumerView

section
variable {s s' k k' : State} {size o : Word} {ap : Bool}

/-- The registers that the statement names are those of the view. -/
theorem State.consumerView_inj (same : s.consumerView = s'.consumerView) :
    s.cfg = s'.cfg ∧ s.head = s'.head ∧ s.tail = s'.tail ∧ s.rb = s'.rb ∧ s.cIntx = s'.cIntx ∧
      s.cPending = s'.cPending ∧ s.cHeadSeen = s'.cHeadSeen ∧ s.tick = s'.tick ∧ s.cLagLeft = s'.cLagLeft ∧
      s.cLagGoal = s'.cLagGoal := by
  injection same
  exact ⟨‹_›, ‹_›, ‹_›, ‹_›, ‹_›, ‹_›, ‹_›, ‹_›, ‹_›, ‹_›⟩

/-! ### What the consumer has room for is committed -/

theorem State.Inv.committed_of_room (hi : s.Inv) (room : s.HasRoom .C size) :
    s.cPending.toNat + size.toNat ≤ s.occ.toNat :=
  room.toNat_pending_add ▸ hi.committed_of_fits (s.observable_readPeer .C) room.fits

/-- The bytes the access core serves lie in the committed stream behind the pending ones (spec/41_datapath.md R134). -/
theorem State.Inv.accessCore_inside (hi : s.Inv) (size : Word) (ap : Bool) :
    s.cPending.toNat + (s.accessCore .C size ap).n.toNat ≤ s.occ.toNat := by
  have pending : s.cPending.toNat ≤ s.occ.toNat :=
    hi.committed_of_fits (s.observable_seen .C) (hi.fits_pending .C)
  rcases s.accessCore_cases .C size ap with ⟨-, eq⟩ | ⟨-, -, -, eq⟩ | ⟨-, -, -, eq⟩ | ⟨arith, -, -, -, eq⟩ <;> rw [eq]
  · exact pending
  · exact pending
  · exact pending
  · exact hi.committed_of_room ⟨arith, minWord_le_right _ _⟩

/-! ### Answers and checks -/

/-- A response of its own, after moves of the registers that keep the responses. -/
theorem State.sameAnswer_respond {u u' : State} {r r' : Response} (kept : u.responses = s.responses)
    (kept' : u'.responses = s'.responses) (same : u.consumerView = u'.consumerView) (answer : r = r') :
    SameAnswer s s' (u.respond .C r) (u'.respond .C r') :=
  ⟨⟨r, congrArg (· ++ _) kept, by rw [answer]; exact congrArg (· ++ _) kept'⟩, same⟩

section
variable (same : s.consumerView = s'.consumerView)
include same

theorem State.sameAnswer_fail (st : Status) (misuse : Option Misuse) :
    SameAnswer s s' (s.fail .C st misuse) (s'.fail .C st misuse) := by
  cases misuse with
  | none => exact sameAnswer_respond rfl rfl same rfl
  | some m => exact sameAnswer_respond (u := s.stickyFault .C m) (u' := s'.stickyFault .C m) rfl rfl same rfl

theorem State.sameAnswer_withTx (h : SameAnswer s s' k k') : SameAnswer s s' (s.withTx .C k) (s'.withTx .C k') := by
  have flag : s.inTx .C = s'.inTx .C := (congrArg (State.inTx · .C) same :)
  unfold State.withTx
  rw [← flag]
  split
  next => exact h
  next => exact sameAnswer_fail same _ _

theorem State.sameAnswer_withOffset (h : o < s.capacity → SameAnswer s s' k k') :
    SameAnswer s s' (s.withOffset .C o k) (s'.withOffset .C o k') := by
  have capacity : s.capacity = s'.capacity := (congrArg State.capacity same :)
  unfold State.withOffset
  rw [← capacity]
  split
  next => exact sameAnswer_fail same _ _
  next legal => exact h (BitVec.not_le.mp legal)

theorem State.sameAnswer_withIdle (h : SameAnswer s s' k k') :
    SameAnswer s s' (s.withIdle .C k) (s'.withIdle .C k') := by
  have flag : s.inTx .C = s'.inTx .C := (congrArg (State.inTx · .C) same :)
  have guard : s.guard .C = s'.guard .C := (congrArg (State.guard · .C) same :)
  unfold State.withIdle
  rw [← flag, ← guard]
  split
  next => exact sameAnswer_fail same _ _
  next =>
    split
    next => exact sameAnswer_fail same _ _
    next => exact h

/-! ### The commands that touch no byte -/

theorem State.sameAnswer_startTx : SameAnswer s s' (s.startTx .C) (s'.startTx .C) := by
  have flag : s.inTx .C = s'.inTx .C := (congrArg (State.inTx · .C) same :)
  have guard : s.guard .C = s'.guard .C := (congrArg (State.guard · .C) same :)
  cases inTx : s.inTx .C with
  | true =>
    rw [s.startTx_busy .C inTx, s'.startTx_busy .C (flag ▸ inTx)]
    exact sameAnswer_fail same _ _
  | false =>
    cases held : s.guard .C with
    | true =>
      rw [s.startTx_held .C inTx held, s'.startTx_held .C (flag ▸ inTx) (guard ▸ held)]
      exact sameAnswer_fail same _ _
    | false =>
      rw [s.startTx_idle .C inTx held, s'.startTx_idle .C (flag ▸ inTx) (guard ▸ held)]
      exact sameAnswer_respond rfl rfl
        (congrArg (fun v => ((v.setGuard .C true).setInTx .C true).setPending .C 0) same :) rfl

theorem State.sameAnswer_commitTx : SameAnswer s s' (s.commitTx .C) (s'.commitTx .C) :=
  sameAnswer_withTx same (sameAnswer_respond rfl rfl
    (congrArg (fun v => (v.incOwn .C (v.pending .C)).closeTx .C) same :)
    (congrArg (fun v => Response.ok (v.pending .C)) same :))

theorem State.sameAnswer_cancelTx : SameAnswer s s' (s.cancelTx .C) (s'.cancelTx .C) :=
  sameAnswer_withTx same (sameAnswer_respond rfl rfl
    (congrArg (fun v => v.closeTx .C) same :) (congrArg (fun v => Response.ok (v.pending .C)) same :))

/-! ### The access core -/

/-- The access core answers by the view, and leaves the view it gives (spec/41_datapath.md R134). -/
theorem State.accessCore_consumerView (size : Word) (ap : Bool) :
    (s.accessCore .C size ap).status = (s'.accessCore .C size ap).status ∧
      (s.accessCore .C size ap).n = (s'.accessCore .C size ap).n ∧
      (s.accessCore .C size ap).segs = (s'.accessCore .C size ap).segs ∧
      (s.accessCore .C size ap).after.consumerView = (s'.accessCore .C size ap).after.consumerView := by
  have obs : s.readPeer .C = s'.readPeer .C := (congrArg (State.readPeer · .C) same :)
  have arith : s.arithBad .C (s.readPeer .C) = s'.arithBad .C (s.readPeer .C) :=
    (congrArg (State.arithBad · .C (s.readPeer .C)) same :)
  have avail : s.avail .C (s.readPeer .C) = s'.avail .C (s.readPeer .C) :=
    (congrArg (State.avail · .C (s.readPeer .C)) same :)
  simp only [State.accessCore, ← obs, ← arith, ← avail]
  split
  · exact ⟨rfl, rfl, rfl, same⟩
  · split
    · exact ⟨rfl, rfl, rfl, same⟩
    · split
      · exact ⟨rfl, rfl, rfl, same⟩
      · refine ⟨rfl, rfl, ?_, ?_⟩
        · exact (congrArg (fun v => v.geometry (v.start .C) (minWord size (s.avail .C (s.readPeer .C)))) same :)
        · exact (congrArg (fun v => (v.setPending .C
            (v.pending .C + minWord size (s.avail .C (s.readPeer .C)))).setSeen .C (s.readPeer .C)) same :)

theorem State.sameAnswer_accessTx (size : Word) (ap : Bool) :
    SameAnswer s s' (s.accessTx .C size ap) (s'.accessTx .C size ap) := by
  obtain ⟨status, n, segs, view⟩ := accessCore_consumerView same size ap
  refine sameAnswer_withTx same
    (sameAnswer_respond (s.responses_accessCore .C size ap) (s'.responses_accessCore .C size ap) view ?_)
  rw [Access.response, Access.response, status, n, segs]

/-! ### The commands that read bytes -/

variable (stream : s.committed = s'.committed)
include stream

/-- Both data RAMs hold the same at an offset of the committed stream. -/
theorem State.read?_of_committed {j : Nat} (inside : j < s.occ.toNat) :
    s.ram.read? ((s.tail.toNat + j) % Spec.cap s) = s'.ram.read? ((s.tail.toNat + j) % Spec.cap s) := by
  obtain ⟨cfg, head, tail, -⟩ := consumerView_inj same
  have windows : s.ram.window (Spec.cap s) s.tail.toNat s.occ.toNat =
      s'.ram.window (Spec.cap s) s.tail.toNat s.occ.toNat := by
    simpa only [State.committed_eq_window, State.occ, Spec.cap, ← cfg, ← head, ← tail] using stream
  exact List.map_inj_left.mp windows j (List.mem_range.mpr inside)

/-- Reading such an offset gives the same byte, drawn alike where none was written (spec/20_memory.md R50). -/
theorem State.memRead_of_committed {j : Nat} (inside : j < s.occ.toNat)
    (place : o.toNat = (s.tail.toNat + j) % Spec.cap s) (i : Nat) : s.memRead o i = s'.memRead o i := by
  have tick : s.tick = s'.tick := (congrArg State.tick same :)
  rw [State.memRead, State.memRead, place, read?_of_committed same stream inside, tick]

/-- So does copying out a window of the stream. -/
theorem State.copyOut_of_committed {start start' : Word} {j n : Nat} (starts : start = start')
    (place : start.toNat ≡ s.tail.toNat + j [MOD Spec.cap s]) (inside : j + n ≤ s.occ.toNat) :
    s.copyOut start n = s'.copyOut start' n := by
  have cfg : s.cfg = s'.cfg := (congrArg State.cfg same :)
  subst starts
  rw [State.copyOut, State.copyOut, ← s.segAddr_congr s' cfg]
  refine List.map_congr_left fun i hi => ?_
  have within : j + i < s.occ.toNat := by have := List.mem_range.mp hi; omega
  refine memRead_of_committed same stream within ?_ i
  rw [s.segAddr_toNat, ← Nat.add_assoc]
  exact place.add_right i

variable (hi : s.Inv)
include hi

theorem State.sameAnswer_readTx (size : Word) (ap : Bool) :
    SameAnswer s s' (s.readTx size ap) (s'.readTx size ap) := by
  obtain ⟨status, n, segs, view⟩ := accessCore_consumerView same size ap
  have kept := s.responses_accessCore .C size ap
  have kept' := s'.responses_accessCore .C size ap
  have response : (s.accessCore .C size ap).response = (s'.accessCore .C size ap).response := by
    rw [Access.response, Access.response, status, n, segs]
  have start : s.start .C = s'.start .C := (congrArg (State.start · .C) same :)
  simp only [State.readTx, ← status]
  split
  · refine sameAnswer_respond kept kept' view ?_
    rw [← response, ← n, copyOut_of_committed same stream start (s.start_modEq .C) (hi.accessCore_inside size ap)]
  · exact sameAnswer_respond kept kept' view response

theorem State.sameAnswer_readAtomic (size : Word) : SameAnswer s s' (s.readAtomic size) (s'.readAtomic size) := by
  have obs : s.readPeer .C = s'.readPeer .C := (congrArg (State.readPeer · .C) same :)
  have arith : s.arithBad .C (s.readPeer .C) = s'.arithBad .C (s.readPeer .C) :=
    (congrArg (State.arithBad · .C (s.readPeer .C)) same :)
  have avail : s.cAvail (s.readPeer .C) = s'.cAvail (s.readPeer .C) :=
    (congrArg (State.cAvail · (s.readPeer .C)) same :)
  have start : s.tail &&& s.mask = s'.tail &&& s'.mask := (congrArg (fun v => v.tail &&& v.mask) same :)
  simp only [State.readAtomic, ← obs, ← arith, ← avail]
  split
  next => exact sameAnswer_fail same _ _
  next good =>
    split
    next => exact sameAnswer_fail same _ _
    next enough =>
      split
      next => exact sameAnswer_respond rfl rfl same rfl
      next =>
        have inside := hi.committed_of_room ⟨Bool.eq_false_of_not_eq_true good, BitVec.not_lt.mp enough⟩
        refine sameAnswer_respond rfl rfl
          (congrArg (fun v => (v.incOwn .C size).setSeen .C (s.readPeer .C)) same :) ?_
        rw [copyOut_of_committed same stream start (s.and_mask_modEq s.tail) (j := 0) (by omega)]

theorem State.sameAnswer_cDread (legal : o < s.capacity) :
    SameAnswer s s'
      (if s.cWin o then s.respond .C { Response.ok 1 with rdata := (s.memRead o 0).setWidth 64 }
        else s.fail .C .invalidArgument (some .window))
      (if s'.cWin o then s'.respond .C { Response.ok 1 with rdata := (s'.memRead o 0).setWidth 64 }
        else s'.fail .C .invalidArgument (some .window)) := by
  have window : s.cWin o = s'.cWin o := (congrArg (State.cWin · o) same :)
  rw [← window]
  split
  next open_ =>
    have inside : s.place o s.tail < s.occ.toNat := State.inWindow_iff.mp (hi.validAt_of_cWin open_)
    have place : o.toNat = (s.tail.toNat + s.place o s.tail) % Spec.cap s := by
      rw [s.place_modEq o s.tail, Nat.mod_eq_of_lt (s.lt_capacity_iff.mp legal)]
    refine sameAnswer_respond rfl rfl same ?_
    rw [memRead_of_committed same stream inside place]
  next => exact sameAnswer_fail same _ _

/-! ### The consumer's protocol commands -/

/-- Each of them answers by the view and the committed stream alone. -/
theorem exec_sameAnswer {i : Instr} {t t' : State} (side : i.side = .C) (noReg : ∀ reg, i ≠ .cRdreg reg)
    (noProbe : ∀ o, i ≠ .cProbe o) (h : exec i s = .next t) (h' : exec i s' = .next t') :
    State.SameAnswer s s' t t' := by
  cases i <;> cases side <;> injection h with h <;> injection h' with h' <;> subst h h'
  case cNop => exact State.sameAnswer_respond rfl rfl same rfl
  case cStart => exact State.sameAnswer_startTx same
  case cAccess | cAccessPart => exact State.sameAnswer_accessTx same _ _
  case cCommit => exact State.sameAnswer_commitTx same
  case cCancel => exact State.sameAnswer_cancelTx same
  case cRead | cReadPart => exact State.sameAnswer_withTx same (State.sameAnswer_readTx same stream hi _ _)
  case cReadAtomic => exact State.sameAnswer_withIdle same (State.sameAnswer_readAtomic same stream hi _)
  case cDread =>
    exact State.sameAnswer_withOffset same fun legal =>
      State.sameAnswer_withTx same (State.sameAnswer_cDread same stream hi legal)
  case cRdreg reg => exact absurd rfl (noReg reg)
  case cProbe o => exact absurd rfl (noProbe o)

end

end

section
variable {s s' t t' : State} {i : Instr} {r : Response}

/-- What a consumer command leaves of the committed stream depends on its answer, on the stream it found and on the
pending count (spec/20_memory.md R61). -/
theorem committed_of_sameAnswer (hi : s.Inv) (hi' : s'.Inv) (side : i.side = .C) (stream : s.committed = s'.committed)
    (pending : s.cPending = s'.cPending) (h : exec i s = .next t) (h' : exec i s' = .next t')
    (answer : t.responses = s.responses ++ [(.C, r)]) (answer' : t'.responses = s'.responses ++ [(.C, r)]) :
    t.committed = t'.committed := by
  have wellFormed : i.wellFormed = true := by cases i <;> cases side <;> rfl
  have queue := committedStreamIsAQueue i s t r hi wellFormed h (side ▸ answer)
  have queue' := committedStreamIsAQueue i s' t' r hi' wellFormed h' (side ▸ answer')
  rw [← stream, ← pending] at queue'
  cases i <;> cases side <;> exact queue.trans queue'.symm

end

/-- Settles O51: a consumer command answers by its view and the committed stream, and what it leaves of the stream
depends on its answer. -/
theorem consumerSeesOnlyCommittedData : Obligations.ConsumerSeesOnlyCommittedData := by
  intro i s s' t t' hi hi' side noReg noProbe cfg head tail rb cIntx cPending cHeadSeen tick left goal stream h h'
  have same : s.consumerView = s'.consumerView := by
    simp only [State.consumerView, cfg, head, tail, rb, cIntx, cPending, cHeadSeen, tick, left, goal]
  obtain ⟨⟨r, answer, answer'⟩, view⟩ := exec_sameAnswer same stream hi side noReg noProbe h h'
  obtain ⟨cfg, head, tail, rb, cIntx, pending, cHeadSeen, tick, left, goal⟩ := State.consumerView_inj view
  exact ⟨⟨r, answer, answer'⟩, cfg, head, tail, rb, cIntx, pending, cHeadSeen, tick, left, goal,
    committed_of_sameAnswer hi hi' side stream cPending h h' answer answer'⟩

end Sys2Proof.Machine
end

section
/-! SUPPORT. What reset leaves (spec/70_reset_and_hazards.md R250, R251). -/

namespace Sys2Proof.Machine

/-- `CAPACITY` is at least 1, so that an empty block is never full. -/
theorem State.capacity_ne_zero (s : State) : s.capacity ≠ 0 := fun zero => by
  have pos := s.two_pow_pos
  rw [← s.capacity_toNat, zero] at pos
  exact absurd pos (by decide)

theorem State.occ_resetWith (cfg : Config) : (State.resetWith cfg).occ = 0 := BitVec.sub_self _

/-- Nothing is committed after reset, and no flag but `EMPTY` is set (spec/10_state.md R33). -/
theorem State.flags_resetWith (cfg : Config) : (State.resetWith cfg).flags = 0x1 := by
  have notFull : (State.resetWith cfg).isFull = false := by
    rw [State.isFull, State.occ_resetWith]
    exact beq_false_of_ne (State.capacity_ne_zero _).symm
  rw [State.flags, notFull]
  simp [State.isEmpty, State.hasData, State.isFaulted, State.resetWith, bitAt, BitVec.twoPow]

/-- The reset state has the reset values for every choice of the parameters (R250). -/
theorem resetValues_resetWith (cfg : Config) : Spec.ResetValues (State.resetWith cfg) := by
  have occ := State.occ_resetWith cfg
  have free : (State.resetWith cfg).free = (State.resetWith cfg).capacity := by
    rw [State.free, occ]
    exact BitVec.sub_zero _
  have pAvail : (State.resetWith cfg).pAvail (State.resetWith cfg).tail = (State.resetWith cfg).capacity :=
    (BitVec.sub_zero _).trans free
  have cAvail : (State.resetWith cfg).cAvail (State.resetWith cfg).head = 0 := (BitVec.sub_zero _).trans occ
  have start (sd : Side) : (State.resetWith cfg).start sd = 0 := by cases sd <;> exact BitVec.zero_and
  exact ⟨rfl, rfl, rfl, rfl, rfl, rfl, rfl, rfl, rfl, rfl, rfl, fun _ => rfl, State.flags_resetWith cfg, occ, free,
    pAvail, cAvail, start .P, start .C⟩

theorem step_of_reset {s : State} (reset : s.resetIn = true) : step s = .next s.applyReset := by
  simp [step, reset]

/-- Settles O9: a step with reset asserted leaves the reset state of the same parameters, with no response in it. -/
theorem resetLeavesTheResetValues : Obligations.ResetLeavesTheResetValues := by
  refine ⟨resetValues_resetWith, fun s reset => ⟨s.applyReset, step_of_reset reset, ?_⟩⟩
  have values : Spec.ResetValues s.applyReset := resetValues_resetWith s.cfg
  exact ⟨values, rfl, rfl, rfl, rfl, fun e none => absurd none List.not_mem_nil⟩

end Sys2Proof.Machine
end

section
/-! SUPPORT. The agents' own-path accesses (spec/70_reset_and_hazards.md R261; log entry 13): the checks they share, what
the outside world keeps of the invariants, and what an access in the window does. -/

namespace Sys2Proof.Machine

/-! ### The `COMMIT` that ends a transaction -/

/-- The oldest of a port's commands that ends a transaction of its side publishes it. -/
def CommitFirst (port : Side) (cs : List Command) : Prop :=
  ∃ (before after : List Command) (c : Command), cs = before ++ c :: after ∧
    (decode port c = .instr .pCommit ∨ decode port c = .instr .cCommit) ∧
    ∀ c' ∈ before, ∀ i ∈ [Instr.pCommit, .pCancel, .cCommit, .cCancel], decode port c' ≠ .instr i

/-- The front command publishes, or it discards, or it ends no transaction and the later ones decide. -/
theorem commitFirst_cons_cases (port : Side) (c : Command) (cs : List Command) :
    ((decode port c = .instr .pCommit ∨ decode port c = .instr .cCommit) ∧ commitFirst port (c :: cs) = true) ∨
      ((decode port c = .instr .pCancel ∨ decode port c = .instr .cCancel) ∧ commitFirst port (c :: cs) = false) ∨
      ((∀ i ∈ [Instr.pCommit, .pCancel, .cCommit, .cCancel], decode port c ≠ .instr i) ∧
        commitFirst port (c :: cs) = commitFirst port cs) := by
  cases decoded : decode port c with
  | malformed why => exact .inr (.inr ⟨by simp, by simp [commitFirst, decoded]⟩)
  | instr i => cases i <;> simp [commitFirst, decoded, isCommit, isCancel]

theorem commitFirst_iff (port : Side) (cs : List Command) : commitFirst port cs = true ↔ CommitFirst port cs := by
  induction cs with
  | nil => simp [commitFirst, CommitFirst]
  | cons d cs ih =>
    rcases commitFirst_cons_cases port d cs with ⟨commits, eq⟩ | ⟨cancels, eq⟩ | ⟨neither, eq⟩ <;> rw [eq]
    · exact iff_of_true rfl ⟨[], cs, d, rfl, commits, by simp⟩
    · refine iff_of_false Bool.false_ne_true ?_
      rintro ⟨_ | ⟨e, before⟩, after, c, split, commits, none⟩ <;> cases split
      · rcases cancels with h | h <;> rcases commits with h' | h' <;> cases h.symm.trans h'
      · rcases cancels with h | h <;> exact none d (by simp) _ (by simp) h
    · rw [ih]
      constructor
      · rintro ⟨before, after, c, rfl, commits, none⟩
        exact ⟨d :: before, after, c, rfl, commits, List.forall_mem_cons.mpr ⟨neither, none⟩⟩
      · rintro ⟨_ | ⟨e, before⟩, after, c, split, commits, none⟩ <;> cases split
        · rcases commits with h | h <;> exact absurd h (neither _ (by simp))
        · exact ⟨before, after, c, rfl, commits, (List.forall_mem_cons.mp none).2⟩

theorem State.commitIssued_iff (s : State) (port : Side) : s.commitIssued port = true ↔ Spec.CommitIssued s port :=
  commitFirst_iff port (s.queue port)

/-! ### The checks of an own-path access -/

/-- An own-path access of a side at an address: in the region, in the side's open window, before its `COMMIT`, it has
the effect `k` at the offset (R261 duties 1 to 3). -/
def State.ownPathAccess (s : State) (port : Side) (addr : Nat) (k : Word → State) : Result :=
  match s.offsetAt addr with
  | none => .fault .ownPathOutsideRegion
  | some o =>
    if !(s.inTx port && s.inWindow o (s.own port) (s.pending port)) then .fault .ownPathOutsideWindow
    else if s.commitIssued port then .fault .ownPathAfterCommit
    else .next (k o)

theorem env_ownWrite (s : State) (addr : Nat) (b : Byte) :
    env (.ownWrite addr b) s = s.ownPathAccess .P addr (fun o => s.memWrite o b) := rfl

theorem env_ownRead (s : State) (addr : Nat) :
    env (.ownRead addr) s = s.ownPathAccess .C addr (fun o => s.ownPathRead addr o) := rfl

section
variable {s t : State} {port : Side} {o addr : Nat} {k : Word → State}

theorem State.offsetAt_dataBase_add (s : State) (o : Nat) :
    s.offsetAt (s.cfg.dataBase + o) = if o < Spec.cap s then some (BitVec.ofNat 64 o) else none := by
  simp [State.offsetAt, s.cap_eq]

theorem State.toNat_ofNat_legal (legal : o < Spec.cap s) : (BitVec.ofNat 64 o).toNat = o := by
  have short : Spec.cap s ≤ 2 ^ 63 := s.two_pow_le
  rw [BitVec.toNat_ofNat]
  exact Nat.mod_eq_of_lt (by omega)

/-- The offset of an address in the region is one of the data RAM's (spec/20_memory.md R53). -/
theorem State.offsetAt_lt {w : Word} (h : s.offsetAt addr = some w) : w < s.capacity := by
  unfold State.offsetAt at h
  split at h <;> cases h
  next inside =>
    obtain ⟨-, legal⟩ := inside
    rw [← s.cap_eq] at legal
    rwa [State.lt_capacity_iff, State.toNat_ofNat_legal legal]

/-- An access that does not stop has its effect at an offset of the data RAM. -/
theorem State.ownPathAccess_next (h : s.ownPathAccess port addr k = .next t) : ∃ w, w < s.capacity ∧ t = k w := by
  unfold State.ownPathAccess at h
  split at h
  next => cases h
  next w offset =>
    split at h
    · cases h
    · split at h <;> cases h
      exact ⟨w, State.offsetAt_lt offset, rfl⟩

theorem State.ownPathAccess_outsideRegion (outside : Spec.cap s ≤ o) :
    s.ownPathAccess port (s.cfg.dataBase + o) k = .fault .ownPathOutsideRegion := by
  rw [State.ownPathAccess, s.offsetAt_dataBase_add, if_neg (Nat.not_lt.mpr outside)]

section
variable (legal : o < Spec.cap s)
include legal

/-- In the region, the window check is that of the spec's window (spec/41_datapath.md R131). -/
theorem State.ownPathWindow_iff :
    (s.inTx port && s.inWindow (BitVec.ofNat 64 o) (s.own port) (s.pending port)) = true ↔
      s.inTx port = true ∧ Spec.InWindow (Spec.cap s) o (s.own port).toNat (s.pending port).toNat := by
  have number := State.toNat_ofNat_legal legal
  rw [Bool.and_eq_true, State.inWindow_iff_specInWindow _ _ (by rwa [number]), number]

theorem State.ownPathAccess_outsideWindow
    (outside : ¬ (s.inTx port = true ∧ Spec.InWindow (Spec.cap s) o (s.own port).toNat (s.pending port).toNat)) :
    s.ownPathAccess port (s.cfg.dataBase + o) k = .fault .ownPathOutsideWindow := by
  rw [← State.ownPathWindow_iff legal, Bool.not_eq_true] at outside
  rw [State.ownPathAccess, s.offsetAt_dataBase_add, if_pos legal]
  simp only [outside, Bool.not_false, if_true]

variable (inTx : s.inTx port = true)
  (window : Spec.InWindow (Spec.cap s) o (s.own port).toNat (s.pending port).toNat)
include inTx window

theorem State.ownPathAccess_inWindow :
    s.ownPathAccess port (s.cfg.dataBase + o) k =
      if s.commitIssued port then .fault .ownPathAfterCommit else .next (k (BitVec.ofNat 64 o)) := by
  have inside := (State.ownPathWindow_iff legal).mpr ⟨inTx, window⟩
  rw [State.ownPathAccess, s.offsetAt_dataBase_add, if_pos legal]
  simp only [inside, Bool.not_true, Bool.false_eq_true, if_false]

theorem State.ownPathAccess_afterCommit (issued : Spec.CommitIssued s port) :
    s.ownPathAccess port (s.cfg.dataBase + o) k = .fault .ownPathAfterCommit := by
  rw [State.ownPathAccess_inWindow legal inTx window, if_pos ((s.commitIssued_iff port).mpr issued)]

theorem State.ownPathAccess_open (notIssued : ¬ Spec.CommitIssued s port) :
    s.ownPathAccess port (s.cfg.dataBase + o) k = .next (k (BitVec.ofNat 64 o)) := by
  rw [State.ownPathAccess_inWindow legal inTx window, if_neg (mt (s.commitIssued_iff port).mp notIssued)]

end

end

/-! ### The outside world and the invariants -/

/-- Settles O43: no action moves a register of the invariants but reset, and an own-path write stores at an offset of
the data RAM. -/
theorem environmentKeepsTheInvariants : Obligations.EnvironmentKeepsTheInvariants := by
  intro a s t hi hr h
  cases a with
  | issue port c =>
    cases h
    cases port <;> exact ⟨hi, hr⟩
  | assertReset =>
    cases h
    exact ⟨hi, hr⟩
  | ownWrite addr b =>
    rw [env_ownWrite] at h
    obtain ⟨w, legal, rfl⟩ := State.ownPathAccess_next h
    obtain ⟨wf, within⟩ := hr
    exact ⟨hi, Memory.wf_write _ _ b wf, Memory.within_write _ _ _ b within legal⟩
  | ownRead addr =>
    rw [env_ownRead] at h
    obtain ⟨w, -, rfl⟩ := State.ownPathAccess_next h
    exact ⟨hi, hr⟩

/-! ### What an access in the window does -/

section
variable {s : State} {o : Nat}

/-- A byte written in the producer's window, which is free space, is no part of the committed stream. -/
theorem State.Inv.committed_memWrite (hi : s.Inv) {w : Word} (b : Byte) (legal : w < s.capacity)
    (inside : s.pWin w = true) : (s.memWrite w b).committed = s.committed := by
  have kept := hi.committed_pDwrite b legal
  rwa [if_pos inside] at kept

theorem State.memWrite_ofNat (legal : o < Spec.cap s) (b : Byte) :
    s.memWrite (BitVec.ofNat 64 o) b = { s with ram := s.ram.write o b } := by
  rw [State.memWrite, State.toNat_ofNat_legal legal]

/-- The byte an own-path read returns is the one written there. -/
theorem State.ownPathByte_of_written (legal : o < Spec.cap s) {b : Byte} (written : s.ram.read? o = some b) :
    s.ownPathByte (BitVec.ofNat 64 o) = b :=
  State.memRead_of_written (by rwa [State.toNat_ofNat_legal legal]) 0

end

/-- Settles O54: the checks in their order, then a byte stored in free space. -/
theorem ownPathWriteLeavesTheStream : Obligations.OwnPathWriteLeavesTheStream := by
  intro s o b hi
  rw [env_ownWrite]
  refine ⟨State.ownPathAccess_outsideRegion, State.ownPathAccess_outsideWindow (port := .P),
    State.ownPathAccess_afterCommit (port := .P),
    fun legal inTx window notIssued => ⟨s.ram.write o b, ?_, s.ram.stored_write b legal, ?_⟩⟩
  · rw [State.ownPathAccess_open (port := .P) legal inTx window notIssued, State.memWrite_ofNat legal]
  · have number := State.toNat_ofNat_legal legal
    have offset : BitVec.ofNat 64 o < s.capacity := s.lt_capacity_iff.mpr (by rwa [number])
    have inside : s.pWin (BitVec.ofNat 64 o) = true :=
      (State.inWindow_iff_specInWindow _ _ (by rwa [number])).mpr (by rwa [number])
    rw [← State.memWrite_ofNat legal, hi.committed_memWrite b offset inside]

/-- Settles O55: the checks in their order, then the byte of the data RAM at a draw index of its own. -/
theorem ownPathReadReturnsTheByte : Obligations.OwnPathReadReturnsTheByte := by
  intro s o
  rw [env_ownRead]
  exact ⟨State.ownPathAccess_outsideRegion, State.ownPathAccess_outsideWindow (port := .C),
    State.ownPathAccess_afterCommit (port := .C),
    fun legal inTx window notIssued =>
      ⟨_, State.ownPathAccess_open (port := .C) legal inTx window notIssued, fun b written =>
        State.ownPathByte_of_written (s := { s with tick := s.tick + 1 }) legal written⟩⟩

end Sys2Proof.Machine
end

section
/-! SUPPORT. What one step does to a side's sight of its peer's counter: only a command that comes to `ReadPeer` moves
the side's snapshot and the plan of its reads (spec/40_header.md R104; spec/70_reset_and_hazards.md R265; log entry
8). -/

namespace Sys2Proof.Machine

/-! ### A command that does not read the peer's counter keeps the snapshot -/

section
variable {s k t : State} {sd : Side}

theorem State.seen_fail (s : State) (sd : Side) (st : Status) (misuse : Option Misuse) :
    (s.fail sd st misuse).seen sd = s.seen sd := by
  cases misuse <;> cases sd <;> rfl

theorem State.seen_withPayload (size : Word) (payload : List Byte) (h : k.seen sd = s.seen sd) :
    (s.withPayload sd size payload k).seen sd = s.seen sd := by
  unfold State.withPayload
  split
  · exact h
  · exact s.seen_fail sd _ _

theorem State.seen_withOffset (o : Word) (h : k.seen sd = s.seen sd) : (s.withOffset sd o k).seen sd = s.seen sd := by
  unfold State.withOffset
  split
  · exact s.seen_fail sd _ _
  · exact h

theorem State.seen_withTx (h : s.inTx sd = true → k.seen sd = s.seen sd) : (s.withTx sd k).seen sd = s.seen sd := by
  rcases s.withTx_cases sd k with ⟨inTx, eq⟩ | ⟨-, eq⟩ <;> rw [eq]
  · exact h inTx
  · exact s.seen_fail sd _ _

theorem State.seen_withIdle (h : s.inTx sd = false → s.guard sd = false → k.seen sd = s.seen sd) :
    (s.withIdle sd k).seen sd = s.seen sd := by
  rcases s.withIdle_cases sd k with ⟨idle, free, eq⟩ | ⟨st, misuse, -, eq⟩ <;> rw [eq]
  · exact h idle free
  · exact s.seen_fail sd _ _

variable (s sd)

theorem State.seen_startTx : (s.startTx sd).seen sd = s.seen sd := by
  unfold State.startTx
  split
  next => exact s.seen_fail sd _ _
  next =>
    rcases s.beginGuard_cases sd with ⟨-, begun⟩ | ⟨-, begun⟩ <;> rw [begun]
    · exact s.seen_fail sd _ _
    · cases sd <;> rfl

theorem State.seen_commitTx : (s.commitTx sd).seen sd = s.seen sd :=
  seen_withTx fun _ => by cases sd <;> rfl

theorem State.seen_cancelTx : (s.cancelTx sd).seen sd = s.seen sd :=
  seen_withTx fun _ => by cases sd <;> rfl

theorem State.seen_readReg (reg : BitVec 8) : (s.readReg sd reg).seen sd = s.seen sd := by
  unfold State.readReg
  split
  · exact s.seen_fail sd _ _
  · cases sd <;> rfl

theorem State.seen_probe (o : Word) : (s.probe sd o).seen sd = s.seen sd :=
  seen_withOffset o (by cases sd <;> rfl)

end

theorem exec_seen {i : Instr} {s t : State} (h : exec i s = .next t) (noRead : s.readsPeer i = false) :
    t.seen i.side = s.seen i.side := by
  cases i <;> injection h with h <;> subst h
  case pNop | cNop => rfl
  case pStart | cStart => exact s.seen_startTx _
  case pAccess | pAccessPart | cAccess | cAccessPart | cRead | cReadPart =>
    exact State.seen_withTx fun inTx => Bool.noConfusion (inTx.symm.trans noRead)
  case pWrite | pWritePart =>
    exact State.seen_withPayload _ _ (State.seen_withTx fun inTx => Bool.noConfusion (inTx.symm.trans noRead))
  case pWriteAtomic =>
    refine State.seen_withPayload _ _ (State.seen_withIdle fun idle free => absurd noRead ?_)
    simp [State.readsPeer, show s.pIntx = false from idle, show s.wb = false from free]
  case cReadAtomic =>
    refine State.seen_withIdle fun idle free => absurd noRead ?_
    simp [State.readsPeer, show s.cIntx = false from idle, show s.rb = false from free]
  case pCommit | cCommit => exact s.seen_commitTx _
  case pCancel | cCancel => exact s.seen_cancelTx _
  case pDwrite =>
    refine State.seen_withOffset _ (State.seen_withTx fun _ => ?_)
    split <;> rfl
  case cDread =>
    refine State.seen_withOffset _ (State.seen_withTx fun _ => ?_)
    split <;> rfl
  case pRdreg | cRdreg => exact s.seen_readReg _ _
  case pProbe | cProbe => exact s.seen_probe _ _

/-! ### What a move leaves of the peer's counter, the snapshot and the plan -/

section
variable {s t u : State} {sd : Side} {x n obs : Word}

theorem State.peer_eq_own (s : State) (sd : Side) : s.peer sd = s.own sd.other := by
  cases sd <;> rfl

theorem State.Moves.lag_eq (h : s.Moves sd u) (port : Side) :
    u.lagLeft port = s.lagLeft port ∧ u.lagGoal port = s.lagGoal port := by
  cases h <;> cases sd <;> cases port <;> exact ⟨rfl, rfl⟩

theorem State.Does.lag_eq (h : s.Does sd t) (port : Side) :
    t.lagLeft port = s.lagLeft port ∧ t.lagGoal port = s.lagGoal port := by
  obtain ⟨u, m, r, moves, -, rfl⟩ := h
  have lag := moves.lag_eq port
  cases port <;> exact lag

/-- A move of the side leaves its snapshot, or takes the value just observed for it (R134, R148, R168). -/
theorem State.Moves.seen_cases (h : s.Moves sd u) : u.seen sd = s.seen sd ∨ u.seen sd = s.readPeer sd := by
  cases h with
  | served | copied => right; cases sd <;> rfl
  | none | misuse | opened | published | cancelled => left; cases sd <;> rfl

theorem State.Does.seen_cases (h : s.Does sd t) : t.seen sd = s.seen sd ∨ t.seen sd = s.readPeer sd := by
  obtain ⟨u, m, r, moves, -, rfl⟩ := h
  cases sd <;> exact moves.seen_cases

/-- Nor does it move the peer's counter (R100). -/
theorem State.Does.peer_eq (h : s.Does sd t) : t.peer sd = s.peer sd := by
  obtain ⟨own, -⟩ := h.other_side
  rw [State.peer_eq_own, State.peer_eq_own, own]

/-- A counter that moves on by bytes that fit does not come round to what the other side saw of it
(spec/10_state.md R37 items 1, 4 and 5). -/
theorem State.Inv.ahead_of_fits (hi : s.Inv) (ho : s.Observable sd obs) (hn : s.Fits sd obs n) :
    (s.own sd - s.seen sd.other).toNat + n.toNat < 2 ^ 64 := by
  have cap := s.capacity_le
  cases sd with
  | P =>
    have free := hi.free_of_fits ho hn
    have order := hi.observed_C (s.observable_seen .C)
    rw [s.cap_eq, State.occ] at free
    simp only [Side.other, State.own_P, State.seen_C] at order ⊢
    omega
  | C =>
    have committed := hi.committed_of_fits ho hn
    obtain ⟨-, -, ⟨seen, -⟩, -⟩ := hi
    rw [State.occ] at committed
    simp only [Side.other, State.own_C, State.seen_P]
    omega

/-- What is observable of a counter stays so as it moves on. -/
theorem le_of_moved_on {own seen : Word} (room : (own - seen).toNat + n.toNat < 2 ^ 64)
    (before : x - seen ≤ own - seen) : x - seen ≤ own + n - seen := by
  bv_omega

/-- A side's counter stands still, or moves on by bytes that fit. -/
theorem State.Moves.own_cases (hi : s.Inv) (h : s.Moves sd u) :
    u.own sd = s.own sd ∨ ∃ n obs, s.Observable sd obs ∧ s.Fits sd obs n ∧ u.own sd = s.own sd + n := by
  cases h with
  | none | misuse | opened | served | cancelled => left; cases sd <;> rfl
  | published =>
    exact .inr ⟨s.pending sd, s.seen sd, s.observable_seen sd, hi.fits_pending sd, by cases sd <;> rfl⟩
  | copied n idle _ room =>
    have fits : s.Fits sd (s.readPeer sd) n := by simpa [hi.pending_of_idle idle] using room.fits
    exact .inr ⟨n, s.readPeer sd, s.observable_readPeer sd, fits, by cases sd <;> rfl⟩

/-- Every move of the peer leaves observable what was so (R104). -/
theorem State.Moves.observable (hi : s.Inv) (h : s.Moves sd u) (ho : s.Observable sd.other x) :
    u.Observable sd.other x := by
  obtain ⟨-, -, -, -, seen⟩ := h.other_side
  have peer (v : State) : v.peer sd.other = v.own sd := by cases sd <;> rfl
  rw [State.Observable, peer] at ho ⊢
  rw [seen]
  rcases h.own_cases hi with still | ⟨n, obs, observable, fits, moved⟩
  · rwa [still]
  · rw [moved]
    exact le_of_moved_on (hi.ahead_of_fits observable fits) ho

/-! ### A step in which the side does not read -/

/-- From `s` to `t` the side has not read its peer's counter: its snapshot and its plan stand, and what it may observe
it still may. -/
structure State.Waits (s : State) (sd : Side) (t : State) : Prop where
  left : t.lagLeft sd = s.lagLeft sd
  goal : t.lagGoal sd = s.lagGoal sd
  seen : t.seen sd = s.seen sd
  ahead : ∀ x, s.Observable sd x → t.Observable sd x

theorem State.Waits.trans (h : s.Waits sd t) (h' : t.Waits sd u) : s.Waits sd u :=
  ⟨h'.left.trans h.left, h'.goal.trans h.goal, h'.seen.trans h.seen, fun x ho => h'.ahead x (h.ahead x ho)⟩

/-- The side's own command, if it keeps the snapshot. -/
theorem State.Does.waits_own (h : s.Does sd t) (seen : t.seen sd = s.seen sd) : s.Waits sd t := by
  obtain ⟨left, goal⟩ := h.lag_eq sd
  exact ⟨left, goal, seen, fun x ho => by rwa [State.Observable, h.peer_eq, seen]⟩

/-- A command of the peer. -/
theorem State.Does.waits_other (hi : s.Inv) (h : s.Does sd t) : s.Waits sd.other t := by
  obtain ⟨left, goal⟩ := h.lag_eq sd.other
  obtain ⟨-, -, -, -, seen⟩ := h.other_side
  refine ⟨left, goal, seen, fun x ho => ?_⟩
  obtain ⟨u, m, r, moves, -, rfl⟩ := h
  have observable := moves.observable hi ho
  cases sd <;> exact observable

/-- Taking a command from a port. -/
theorem State.waits_take (s : State) (port : Side) (rest : List Command) (gs : List Side) (sd : Side) :
    s.Waits sd (s.take port rest gs) := by
  cases port <;> cases sd <;> exact ⟨rfl, rfl, rfl, fun _ => id⟩

/-- Planning a read of the other side. -/
theorem State.waits_setLag_other (s : State) (sd : Side) (left : Nat) (goal : Word) :
    s.Waits sd.other (s.setLag sd left goal) := by
  cases sd <;> exact ⟨rfl, rfl, rfl, fun _ => id⟩

end

/-! ### The planning of a read -/

section
variable {s : State} {port : Side} {c : Command} {i : Instr}

theorem State.planRead_of_reads (lagged : s.cfg.peerView = .lagged) (decoded : decode port c = .instr i)
    (reads : s.readsPeer i = true) : s.planRead port c = s.planLag port := by
  simp [State.planRead, lagged, decoded, reads]

theorem State.planRead_of_not_reads (decoded : decode port c = .instr i) (noRead : s.readsPeer i = false) :
    s.planRead port c = s := by
  unfold State.planRead
  rw [decoded]
  cases s.cfg.peerView <;> simp [noRead]

theorem State.planRead_of_malformed {why : Malformed} (decoded : decode port c = .malformed why) :
    s.planRead port c = s := by
  unfold State.planRead
  rw [decoded]
  cases s.cfg.peerView <;> rfl

/-- Planning a read does not change whether the command makes one. -/
theorem State.readsPeer_planRead (s : State) (port : Side) (c : Command) (i : Instr) :
    (s.planRead port c).readsPeer i = s.readsPeer i := by
  obtain ⟨left, goal, planned⟩ := s.planRead_cases port c
  rw [planned]
  cases port <;> rfl

theorem State.fetch_planned {f : Fetched} (fetched : s.fetch = some f) :
    ∃ rest gs, f.after = (s.take f.port rest gs).planRead f.port f.cmd := by
  rcases s.fetch_cases f fetched with ⟨rest, gs, port, -, after⟩ | ⟨rest, gs, port, -, after⟩ <;>
    exact ⟨rest, gs, by rw [after, port]⟩

/-- A plan begins at the peer's counter as it stands, or the goal is still ahead and one read fewer may miss it. -/
theorem State.planLag_cases (s : State) (sd : Side) :
    ((s.lagLeft sd = 0 ∨ ¬ s.Observable sd (s.lagGoal sd)) ∧ (s.planLag sd).lagGoal sd = s.peer sd) ∨
      (s.Observable sd (s.lagGoal sd) ∧ (s.planLag sd).lagLeft sd + 1 = s.lagLeft sd ∧
        (s.planLag sd).lagGoal sd = s.lagGoal sd) := by
  have setLeft (left : Nat) (goal : Word) : (s.setLag sd left goal).lagLeft sd = left := by cases sd <;> rfl
  have setGoal (left : Nat) (goal : Word) : (s.setLag sd left goal).lagGoal sd = goal := by cases sd <;> rfl
  unfold State.planLag
  split
  next begins =>
    rw [setGoal, State.Observable, BitVec.not_le]
    exact .inl ⟨begins, rfl⟩
  next goesOn =>
    obtain ⟨remain, ahead⟩ := not_or.mp goesOn
    rw [setLeft, setGoal]
    exact .inr ⟨BitVec.not_lt.mp ahead, Nat.succ_pred_eq_of_ne_zero remain, rfl⟩

/-- A read that is to come to the goal observes it or a later value. -/
theorem State.readPeer_comes {sd : Side} (lagged : s.cfg.peerView = .lagged) (due : s.lagLeft sd = 0)
    (ahead : s.Observable sd (s.lagGoal sd)) : s.peer sd - s.readPeer sd ≤ s.peer sd - s.lagGoal sd := by
  have floor : s.lagFloor sd = s.lagGoal sd := if_pos ⟨due, ahead⟩
  have draw := laggedDraw_le (s.lagGoal sd) (s.peer sd) (Config.freeLag s.tick)
  have way := toNat_sub_add_toNat_sub_of_le _ _ _ draw
  simp only [State.readPeer, lagged, floor, BitVec.le_def]
  omega

end

/-! ### A step, with and without a read of the side -/

section
variable {s t : State} {sd : Side} {obs : Word}

theorem State.peer_seen_fetch {f : Fetched} (fetched : s.fetch = some f) (sd : Side) :
    f.after.peer sd = s.peer sd ∧ f.after.seen sd = s.seen sd := by
  obtain ⟨rest, gs, left, goal, eq⟩ := s.fetch_after f fetched
  rw [eq]
  cases f.port <;> cases sd <;> exact ⟨rfl, rfl⟩

/-- Taking a command leaves the snapshot and the plan of a side, unless it is the side's own and makes a read. -/
theorem State.waits_fetch {f : Fetched} (fetched : s.fetch = some f)
    (noRead : f.port = sd → ∀ i, decode f.port f.cmd = .instr i → f.after.readsPeer i = false) :
    s.Waits sd f.after := by
  obtain ⟨rest, gs, after⟩ := State.fetch_planned fetched
  have taken := s.waits_take f.port rest gs sd
  rw [after]
  by_cases own : f.port = sd
  · cases decoded : decode f.port f.cmd with
    | malformed why => rwa [State.planRead_of_malformed decoded]
    | instr i =>
      have none := noRead own i decoded
      rw [after, State.readsPeer_planRead] at none
      rwa [State.planRead_of_not_reads decoded none]
  · obtain ⟨left, goal, planned⟩ := (s.take f.port rest gs).planRead_cases f.port f.cmd
    rw [planned]
    obtain rfl := eq_other_of_ne own
    exact taken.trans (State.waits_setLag_other _ f.port left goal)

theorem State.waits_of_not_observes (hi : s.Inv) (running : s.resetIn = false) (h : step s = .next t)
    (noRead : ¬ ∃ obs, Spec.Observes s sd obs) : s.Waits sd t := by
  rcases step_cases s with ⟨reset, -⟩ | ⟨-, -, eq⟩ | ⟨f, i, -, fetched, decoded, eq⟩ | ⟨f, why, -, fetched, decoded, eq⟩
  · simp [running] at reset
  · cases h.symm.trans eq
    exact ⟨rfl, rfl, rfl, fun _ => id⟩
  · have side := side_of_decode decoded
    have next := eq.symm.trans h
    have does := exec_does i f.after t next
    have notRead : f.port = sd → f.after.readsPeer i = false := fun port =>
      Bool.eq_false_of_not_eq_true fun reads => noRead ⟨_, f, i, fetched, port, decoded, reads, rfl⟩
    have taken : s.Waits sd f.after := State.waits_fetch fetched fun port j decoded' => by
      cases decoded.symm.trans decoded'
      exact notRead port
    refine taken.trans ?_
    rw [side] at does
    by_cases own : f.port = sd
    · have seen := exec_seen next (notRead own)
      rw [side, own] at seen
      exact (own ▸ does).waits_own seen
    · obtain rfl := eq_other_of_ne own
      exact does.waits_other (State.inv_fetch hi fetched)
  · have taken : s.Waits sd f.after := State.waits_fetch fetched fun _ j decoded' => by
      cases decoded.symm.trans decoded'
    refine taken.trans ?_
    cases h.symm.trans eq
    have does := f.after.does_fail f.port .invalidArgument none
    by_cases own : f.port = sd
    · exact own ▸ does.waits_own (f.after.seen_fail _ _ _)
    · obtain rfl := eq_other_of_ne own
      exact does.waits_other (State.inv_fetch hi fetched)

/-- From `s` to `t` the side has observed `obs` of its peer's counter, by a read that began a plan or went on with
one. -/
structure State.Reads (s : State) (sd : Side) (obs : Word) (t : State) : Prop where
  peer : t.peer sd = s.peer sd
  seen : t.seen sd = s.seen sd ∨ t.seen sd = obs
  plan : ((s.lagLeft sd = 0 ∨ ¬ s.Observable sd (s.lagGoal sd)) ∧ t.lagGoal sd = s.peer sd) ∨
    (s.Observable sd (s.lagGoal sd) ∧ t.lagLeft sd + 1 = s.lagLeft sd ∧ t.lagGoal sd = s.lagGoal sd)
  comes : t.lagLeft sd = 0 → s.Observable sd (t.lagGoal sd) → s.peer sd - obs ≤ s.peer sd - t.lagGoal sd

theorem State.reads_of_observes (lagged : s.cfg.peerView = .lagged) (running : s.resetIn = false)
    (h : step s = .next t) (observes : Spec.Observes s sd obs) : s.Reads sd obs t := by
  obtain ⟨f, i, fetched, rfl, decoded, reads, rfl⟩ := observes
  obtain ⟨t', next, does⟩ := step_of_fetch running fetched
  obtain rfl : t = t' := Host.Outcome.next.inj (h.symm.trans next)
  obtain ⟨left, goal⟩ := does.lag_eq f.port
  obtain ⟨peer, seen⟩ := State.peer_seen_fetch fetched f.port
  obtain ⟨-, -, cfg⟩ := State.fetch_keeps fetched
  refine ⟨does.peer_eq.trans peer, seen ▸ does.seen_cases, ?_, fun due ahead => ?_⟩
  · obtain ⟨rest, gs, after⟩ := State.fetch_planned fetched
    rw [after, State.readsPeer_planRead] at reads
    have view : (s.take f.port rest gs).cfg.peerView = .lagged := by cases f.port <;> exact lagged
    have planned := (s.take f.port rest gs).planLag_cases f.port
    rw [← State.planRead_of_reads view decoded reads, ← after, ← left, ← goal] at planned
    generalize f.port = sd at planned ⊢
    cases sd <;> exact planned
  · rw [left] at due
    rw [goal, State.Observable, ← peer, ← seen] at ahead
    rw [goal, ← peer]
    exact State.readPeer_comes (by rw [cfg, lagged]) due ahead

/-- Under `CURRENT` a read observes the counter itself (R104). -/
theorem eq_peer_of_observes (current : s.cfg.peerView = .current) (observes : Spec.Observes s sd obs) :
    obs = s.peer sd := by
  obtain ⟨f, i, fetched, rfl, -, -, rfl⟩ := observes
  obtain ⟨peer, -⟩ := State.peer_seen_fetch fetched f.port
  obtain ⟨-, -, cfg⟩ := State.fetch_keeps fetched
  rw [State.readPeer_current (by rw [cfg, current]), peer]

end

theorem step_cfg {s t : State} (h : step s = .next t) : t.cfg = s.cfg := by
  rcases step_does s t h with rfl | rfl | ⟨f, sd, fetched, u, m, r, moves, -, rfl⟩
  · rfl
  · rfl
  · obtain ⟨-, -, cfg⟩ := State.fetch_keeps fetched
    exact moves.cfg_eq.trans cfg

end Sys2Proof.Machine
end

section
/-! SUPPORT. Eventual visibility (spec/70_reset_and_hazards.md R265): the goal of a plan is the peer's counter as it
stood, it stays ahead of the snapshot while every read misses it, and each read uses up one of those that may. -/

namespace Sys2Proof.Machine

/-! ### A run without reset -/

section
variable {run : Nat → State} {sd : Side} {k n : Nat} {obs : Word}

section
variable (inv : (run 0).Inv) (running : ∀ k, (run k).resetIn = false) (steps : Spec.IsRun run)
include steps

theorem run_cfg (k : Nat) : (run k).cfg = (run 0).cfg := by
  induction k with
  | zero => rfl
  | succ k ih =>
    obtain ⟨t, ps, cs, next, eq⟩ := steps k
    have kept := step_cfg next
    rw [eq, ← ih]
    exact kept

theorem run_reads (running : ∀ k, (run k).resetIn = false) (lagged : (run 0).cfg.peerView = .lagged)
    (observes : Spec.Observes (run k) sd obs) : (run k).Reads sd obs (run (k + 1)) := by
  obtain ⟨t, ps, cs, next, eq⟩ := steps k
  obtain ⟨peer, seen, plan, comes⟩ :=
    State.reads_of_observes ((run_cfg steps k).symm ▸ lagged) (running k) next observes
  rw [eq]
  cases sd <;> exact ⟨peer, seen, plan, comes⟩

include inv

theorem run_inv (k : Nat) : (run k).Inv := by
  induction k with
  | zero => exact inv
  | succ k ih =>
    obtain ⟨t, ps, cs, next, eq⟩ := steps k
    have kept : t.Inv := stepKeepsTheInvariants _ _ ih next
    rw [eq]
    exact kept

theorem run_waits (running : ∀ k, (run k).resetIn = false) (noRead : ¬ ∃ obs, Spec.Observes (run k) sd obs) :
    (run k).Waits sd (run (k + 1)) := by
  obtain ⟨t, ps, cs, next, eq⟩ := steps k
  obtain ⟨left, goal, seen, ahead⟩ := State.waits_of_not_observes (run_inv inv steps k) (running k) next noRead
  rw [eq]
  cases sd <;> exact ⟨left, goal, seen, ahead⟩

end

/-! ### The pursuit of a goal -/

/-- Every read from step `k` on observes a value that lags behind the counter by more than it has gone forward since:
what eventual visibility rules out. -/
def Stale (run : Nat → State) (sd : Side) (k : Nat) : Prop :=
  ∀ n obs, Spec.Observes (run (k + n)) sd obs →
    Spec.advanced run sd k n < ((run (k + n)).peer sd - obs).toNat

/-- The goal of the side's reads is not behind its snapshot, and the peer's counter had it at step `k` or later. -/
def Pursues (run : Nat → State) (sd : Side) (k n : Nat) : Prop :=
  (run (k + n)).Observable sd ((run (k + n)).lagGoal sd) ∧
    ((run (k + n)).peer sd - (run (k + n)).lagGoal sd).toNat ≤ Spec.advanced run sd k n

theorem toNat_sub_le_add (a b c : Word) : (c - a).toNat ≤ (b - a).toNat + (c - b).toNat := by
  bv_omega

/-- Of two values behind `peer`, the one less far behind is not behind the other. -/
theorem sub_le_sub_of_toNat_lt {goal x peer : Word} (h : (peer - goal).toNat < (peer - x).toNat) :
    goal - x ≤ peer - x := by
  bv_omega

/-- A goal that stands is behind the counter by no more than the counter has gone forward. -/
theorem distance_le_advanced {goal : Word}
    (h : ((run (k + n)).peer sd - goal).toNat ≤ Spec.advanced run sd k n) :
    ((run (k + (n + 1))).peer sd - goal).toNat ≤ Spec.advanced run sd k (n + 1) :=
  (toNat_sub_le_add goal _ _).trans (Nat.add_le_add_right h _)

theorem Pursues.of_waits (h : Pursues run sd k n) (waits : (run (k + n)).Waits sd (run (k + (n + 1)))) :
    Pursues run sd k (n + 1) := by
  obtain ⟨ahead, near⟩ := h
  rw [Pursues, waits.goal]
  exact ⟨waits.ahead _ ahead, distance_le_advanced near⟩

section
variable (stale : Stale run sd k) (observes : Spec.Observes (run (k + n)) sd obs)
  (reads : (run (k + n)).Reads sd obs (run (k + (n + 1))))
include stale observes reads

/-- A stale read was not one that is to come to a goal the counter has had. -/
theorem lagLeft_ne_zero_of_stale (ahead : (run (k + n)).Observable sd ((run (k + (n + 1))).lagGoal sd))
    (near : ((run (k + n)).peer sd - (run (k + (n + 1))).lagGoal sd).toNat ≤ Spec.advanced run sd k n) :
    (run (k + (n + 1))).lagLeft sd ≠ 0 := fun due => by
  have late := stale n obs observes
  have come := BitVec.le_def.mp (reads.comes due ahead)
  omega

/-- A stale read goes on with the plan, of which reads that may miss the goal are left. -/
theorem Pursues.of_reads (h : Pursues run sd k n) (left : (run (k + n)).lagLeft sd ≠ 0) :
    Pursues run sd k (n + 1) ∧ (run (k + (n + 1))).lagLeft sd + 1 = (run (k + n)).lagLeft sd ∧
      (run (k + (n + 1))).lagLeft sd ≠ 0 := by
  obtain ⟨ahead, near⟩ := h
  rcases reads.plan with ⟨zero | behind, -⟩ | ⟨-, fewer, goal⟩
  · exact absurd zero left
  · exact absurd ahead behind
  · have remain := lagLeft_ne_zero_of_stale stale observes reads (goal ▸ ahead) (goal ▸ near)
    refine ⟨⟨?_, goal ▸ distance_le_advanced near⟩, fewer, remain⟩
    rw [State.Observable, goal, reads.peer]
    rcases reads.seen with seen | seen <;> rw [seen]
    · exact ahead
    · exact sub_le_sub_of_toNat_lt (near.trans_lt (stale n obs observes))

/-- A stale read that begins a plan begins a pursuit. -/
theorem pursues_of_begins (begins : (run (k + (n + 1))).lagGoal sd = (run (k + n)).peer sd) :
    Pursues run sd k (n + 1) ∧ (run (k + (n + 1))).lagLeft sd ≠ 0 := by
  have here : ((run (k + n)).peer sd - (run (k + n)).peer sd).toNat ≤ Spec.advanced run sd k n := by simp
  refine ⟨⟨?_, ?_⟩, lagLeft_ne_zero_of_stale stale observes reads (begins ▸ BitVec.le_refl _) (begins ▸ here)⟩
  · rw [begins, ← reads.peer]
    exact BitVec.le_refl _
  · rw [begins]
    exact distance_le_advanced here

end

section
variable (inv : (run 0).Inv) (running : ∀ k, (run k).resetIn = false) (steps : Spec.IsRun run)
  (lagged : (run 0).cfg.peerView = .lagged) (again : ∀ k, ∃ m, k ≤ m ∧ ∃ obs, Spec.Observes (run m) sd obs)
include inv running steps lagged again

/-- Until its next read a side keeps its plan, and the pursuit of its goal. -/
theorem next_read (k n : Nat) :
    ∃ n' obs, Spec.Observes (run (k + n')) sd obs ∧ (run (k + n')).Reads sd obs (run (k + (n' + 1))) ∧
      (run (k + n')).lagLeft sd = (run (k + n)).lagLeft sd ∧ (Pursues run sd k n → Pursues run sd k n') := by
  obtain ⟨d, read⟩ : ∃ d, ∃ obs, Spec.Observes (run (k + (n + d))) sd obs := by
    obtain ⟨m, le, read⟩ := again (k + n)
    obtain ⟨d, rfl⟩ := Nat.exists_eq_add_of_le le
    exact ⟨d, Nat.add_assoc k n d ▸ read⟩
  induction d generalizing n with
  | zero =>
    obtain ⟨obs, observes⟩ := read
    exact ⟨n, obs, observes, run_reads steps running lagged observes, rfl, id⟩
  | succ d ih =>
    by_cases now : ∃ obs, Spec.Observes (run (k + n)) sd obs
    · obtain ⟨obs, observes⟩ := now
      exact ⟨n, obs, observes, run_reads steps running lagged observes, rfl, id⟩
    · have waits := run_waits inv steps running now
      obtain ⟨n', obs, observes, reads, left, pursues⟩ := ih (n + 1)
        (by rwa [Nat.add_assoc n, Nat.add_comm 1])
      exact ⟨n', obs, observes, reads, left.trans waits.left, fun h => pursues (h.of_waits waits)⟩

variable (stale : Stale run sd k)
include stale

/-- No pursuit stays stale: each read uses up one of those that may miss the goal. -/
theorem not_pursues {left : Nat} (remain : left ≠ 0) :
    ∀ n, (run (k + n)).lagLeft sd = left → ¬ Pursues run sd k n := by
  induction left with
  | zero => exact absurd rfl remain
  | succ left ih =>
    intro n eq h
    obtain ⟨n', obs, observes, reads, same, pursues⟩ := next_read inv running steps lagged again k n
    rw [eq] at same
    obtain ⟨h', fewer, ne⟩ := (pursues h).of_reads stale observes reads (by omega)
    have eq' : (run (k + (n' + 1))).lagLeft sd = left := by omega
    exact ih (eq' ▸ ne) (n' + 1) eq' h'

/-- The plan that stands ends, and the read that begins the next one begins a pursuit. -/
theorem exists_pursuit {left : Nat} :
    ∀ n, (run (k + n)).lagLeft sd = left → ∃ n', (run (k + n')).lagLeft sd ≠ 0 ∧ Pursues run sd k n' := by
  induction left using Nat.strong_induction_on with
  | h left ih =>
    intro n eq
    obtain ⟨n', obs, observes, reads, same, -⟩ := next_read inv running steps lagged again k n
    rcases reads.plan with ⟨-, begins⟩ | ⟨-, fewer, -⟩
    · obtain ⟨h, ne⟩ := pursues_of_begins stale observes reads begins
      exact ⟨n' + 1, ne, h⟩
    · exact ih _ (by omega) (n' + 1) rfl

theorem not_stale : False := by
  obtain ⟨n, remain, h⟩ := exists_pursuit inv running steps lagged again stale 0 rfl
  exact not_pursues inv running steps lagged again stale remain n rfl h

end

end

/-- Settles O39: under `CURRENT` the next read observes the counter itself; under `LAGGED` reads that stay stale would
use up those that may miss the goal. -/
theorem everyPeerValueIsComeTo : Obligations.EveryPeerValueIsComeTo := by
  intro sd run inv running steps again k
  cases view : (run 0).cfg.peerView with
  | current =>
    obtain ⟨m, le, obs, observes⟩ := again k
    obtain ⟨n, rfl⟩ := Nat.exists_eq_add_of_le le
    refine ⟨n, obs, observes, ?_⟩
    rw [eq_peer_of_observes ((run_cfg steps _).symm ▸ view) observes]
    simp
  | lagged =>
    by_contra none
    have stale : Stale run sd k := fun n obs observes =>
      Nat.lt_of_not_le fun near => none ⟨n, obs, observes, near⟩
    exact not_stale inv running steps view again stale

end Sys2Proof.Machine
end
